-- ==== Sys2Proof/Word.lean ====
section
/-! DEFINITION. The widths the spec gives: bytes, host register words, raw counts, bus addresses, transport errors. -/

namespace Sys2Proof

/-- A byte, 0..255 (R17). -/
abbrev Byte := BitVec 8

/-- A host register value, 32 bits (R43). -/
abbrev Word32 := BitVec 32

/-- A raw count, 20 bits unsigned (R9 FIELD_BITS, R17). -/
abbrev RawCount := BitVec 20

/-- A bus device address, 7 bits (R9 DEV_ADDR, R61). -/
abbrev Addr7 := BitVec 7

/-- The transport errors the machine behind the host's interface is run with: numbered ones (log 5, DESIGN CHOICE, safe).
The open parameter `E` of R12 is an argument of the state and of every operation; this is the value it has there. -/
structure XportError where
  tag : Nat
  deriving DecidableEq, Repr, Inhabited

/-- The three things a withdrawn transport request may have done on the wire (R152). -/
inductive WireOutcome where
  | notPerformed
  | performedInFull
  | performedInPart
  deriving DecidableEq, Repr, Inhabited

end Sys2Proof
end

