-- ==== Sys2Proof/Config.lean ====
section
/-! DEFINITION. What is fixed for the life of the block (R9, R48): the source's literals, the named parameters
with their defaults (R10, R11, R14), and the free values the spec leaves open. -/

namespace Sys2Proof

/-- The parameters of R48 that are values. (`E`, a type, is the argument of `State.Over`.) -/
structure Params where
  /-- OPC_CALIBRATE (R10). -/
  opcCalibrate : Byte
  /-- OPC_GETRAW (R10). -/
  opcGetRaw : Byte
  /-- OPC_GETCT (R10). -/
  opcGetCt : Byte
  /-- OPC_RESET (R10). -/
  opcReset : Byte
  /-- CAL_MASK, the mask of CALIBRATION_ENABLE in the status byte (R11, R176). -/
  calMask : Byte
  /-- HAS_ABORT, whether the host can cancel (R14). -/
  hasAbort : Bool
  deriving DecidableEq, Repr

namespace Config

/-- The parameter values `exec` and `step` are the machine of: the spec's defaults (R10, R11, D3, D4) and, for the
open HAS_ABORT, the value its test vectors use unless they say otherwise (95_test_vectors.md Conventions).
DESIGN CHOICE, log 9, unsafe for a block built with other values: that block is `stepOver` of its own `Params`. -/
def params : Params where
  opcCalibrate := 0xE1#8
  opcGetRaw := 0xA8#8
  opcGetCt := 0xAC#8
  opcReset := 0xBA#8
  calMask := 0x08#8
  hasAbort := true

/-- DEV_ADDR, the fixed 7-bit device address (R9, R61). -/
def devAddr : Addr7 := 0x38#7

/-- RD_LEN, the bytes of a read response (R9, R66; C1). -/
def rdLen : Nat := 7

/-- INIT_DELAY in ms, requested exactly (R9, R13). -/
def initDelay : Nat := 300

/-- RESET_DELAY in ms, requested exactly (R9, R13). -/
def resetDelay : Nat := 20

/-- TRIG_DATA, the zero data word of the GetRaw trigger (R9, R15). -/
def trigData : BitVec 16 := 0x0000#16

/-- CAL_DATA, the data word of Calibrate (R9, R15). -/
def calData : BitVec 16 := 0x0800#16

/-- The zero data word of the Reset command (R15, R86, D11). -/
def resetData : BitVec 16 := 0x0000#16

/-- MEAS_DATA, the bytes 0xFF and 0x00 of GetCT as one word (R9, R15, R86). -/
def measData : BitVec 16 := 0xFF00#16

/-- Free value (log 4): the 7 bytes `rbuf` holds after a BlockReset event, which R44 leaves unspecified. -/
opaque freeRbuf : Nat → BitVec 56

/-- Free value (log 4): `hum_raw` after a BlockReset event (R44). -/
opaque freeHum : Nat → RawCount

/-- Free value (log 4): `temp_raw` after a BlockReset event (R44). -/
opaque freeTemp : Nat → RawCount

/-- Free value (log 4): `rsp_code` after a BlockReset event (R44, I22). -/
opaque freeRspCode : Nat → BitVec 3

/-- Free value (log 4): what a withdrawn transport request did on the wire, a draw with three outcomes (R152, R261). -/
opaque freeWireOutcome : Nat → WireOutcome

end Config
end Sys2Proof
end

