-- ==== Sys2Proof/Syntax.lean ====
section
/-! DEFINITION. The instructions (one constructor per row of spec/opcode_table.json) and the two byte formats of
the wire: the 3-byte command frame and the 7-byte response. -/

namespace Sys2Proof

/-- The nine instructions. No instruction has an operand (R81). The first five are host writes
(30_encoding.md section 1), the last four are the frames the block sends (40_wire_commands.md). -/
inductive Instr where
  /-- Host request op 0b00, the initialization handshake (R120). -/
  | init
  /-- Host request op 0b01, the sensor soft reset (R130). -/
  | reset
  /-- Host request op 0b10, the measurement (R140). -/
  | read
  /-- Host request op 0b11, reserved: responds ILLEGAL (R160). -/
  | reservedOp
  /-- A write of any value to register 1, the cancellation (R150). -/
  | abort
  /-- The GetRaw frame with a zero data word (R111). -/
  | trigger
  /-- The Calibrate frame with data word 0x0800 (R112). -/
  | calibrate
  /-- The Reset frame with a zero data word (R113). -/
  | softreset
  /-- The GetCT frame with bytes 0xFF, 0x00 and a 7-byte read (R114). -/
  | measure
  deriving DecidableEq, Repr

/-- The 3-byte command frame, bytes in wire order (R85). -/
structure Frame where
  opc : Byte
  dhi : Byte
  dlo : Byte
  deriving DecidableEq, Repr

/-- The 7-byte response of a READ, byte 0 first on the wire (R89, R162): `bN` is `buf[N]`. -/
structure Response where
  b0 : Byte
  b1 : Byte
  b2 : Byte
  b3 : Byte
  b4 : Byte
  b5 : Byte
  b6 : Byte
  deriving DecidableEq, Repr

end Sys2Proof
end

