-- ==== Sys2Proof/WellFormed.lean ====
section
/-! DEFINITION. The checks on parameters, instructions, frames and raw counts, each a Bool. -/

namespace Sys2Proof

/-- The four opcode parameters are pairwise distinct (R10). -/
def Params.opcodesDistinct (p : Params) : Bool :=
  [p.opcCalibrate, p.opcGetRaw, p.opcGetCt, p.opcReset].Nodup

/-- CAL_MASK has exactly one bit set (R11, R176). -/
def Params.calMaskOneBit (p : Params) : Bool :=
  (List.range 8).any fun k => p.calMask == BitVec.ofNat 8 (2 ^ k)

/-- A parameter set the spec allows (R10, R11). -/
def Params.wf (p : Params) : Bool :=
  p.opcodesDistinct && p.calMaskOneBit

/-- An instruction the block has: ABORT exists only when HAS_ABORT (R14, R82); the others always do. -/
def Instr.wf (p : Params) : Instr → Bool
  | .abort => p.hasAbort
  | .init | .reset | .read | .reservedOp | .trigger | .calibrate | .softreset | .measure => true

/-- A frame whose opcode is one of the closed enumeration of four (R87). -/
def Frame.wf (p : Params) (f : Frame) : Bool :=
  [p.opcCalibrate, p.opcGetRaw, p.opcGetCt, p.opcReset].contains f.opc

/-- A number a Humidity or a Temperature can be built from: a raw count below 2^20 (R210, R211, R218). -/
def rawCountWf (n : Nat) : Bool :=
  decide (n < 2 ^ 20)

end Sys2Proof
end

