-- ==== Sys2Proof/Decode.lean ====
section
/-! DEFINITION. The two encoding spaces of 30_encoding.md: the decoder, total, rejecting by name, and after it the
encoder. -/

namespace Sys2Proof

/-- What an instruction's bits are and where they stand: a 32-bit host write to a register index
(R80, R82), or bytes on the wire (R85). -/
inductive Code where
  | hostWrite (idx : Nat) (v : Word32)
  | wire (bytes : List Byte)
  deriving DecidableEq, Repr

/-- Why a code is no instruction. -/
inductive DecodeError where
  /-- A host write to a register other than REQ and ABORT (R43: the write is ignored). -/
  | notCommandRegister (idx : Nat)
  /-- Wire bytes that are not the 3 of a frame (R85, R91). -/
  | frameLength (n : Nat)
  /-- A frame whose opcode is none of the four (R87). -/
  | unknownOpcode (opc : Byte)
  /-- A frame with one of the four opcodes and another data word than R86 gives it (R87). -/
  | otherDataWord (opc : Byte) (w : BitVec 16)
  deriving DecidableEq, Repr

/-- `Frame(opc, w)`: the opcode, then the data word most significant byte first (R110, R62). -/
def mkFrame (opc : Byte) (w : BitVec 16) : Frame :=
  { opc := opc, dhi := w.extractLsb' 8 8, dlo := w.extractLsb' 0 8 }

/-- The bytes of a frame in wire order (R85). -/
def Frame.bytes (f : Frame) : List Byte := [f.opc, f.dhi, f.dlo]

/-- The data word of a frame (R85). -/
def Frame.data (f : Frame) : BitVec 16 := (f.dhi.setWidth 16 <<< 8) ||| f.dlo.setWidth 16

/-- The frame as one 24-bit value `{opc, dhi, dlo}` (R85). -/
def Frame.word24 (f : Frame) : BitVec 24 :=
  (f.opc.setWidth 24 <<< 16) ||| (f.dhi.setWidth 24 <<< 8) ||| f.dlo.setWidth 24

/-- The field `op` of a value written to REQ, bits 1:0 (R43, R80). -/
def opField (v : Word32) : BitVec 2 := v.extractLsb' 0 2

/-- The operation of an `op` field (R80). -/
def decodeOp (op : BitVec 2) : Instr :=
  if op = 0b00#2 then .init
  else if op = 0b01#2 then .reset
  else if op = 0b10#2 then .read
  else .reservedOp

/-- The command a frame is: its opcode picks it, and its data word must be the one R86 gives (R86, R87). -/
def decodeFrame (p : Params) (f : Frame) : Except DecodeError Instr :=
  if f.opc = p.opcGetRaw then
    if f.data = Config.trigData then .ok .trigger else .error (.otherDataWord f.opc f.data)
  else if f.opc = p.opcCalibrate then
    if f.data = Config.calData then .ok .calibrate else .error (.otherDataWord f.opc f.data)
  else if f.opc = p.opcReset then
    if f.data = Config.resetData then .ok .softreset else .error (.otherDataWord f.opc f.data)
  else if f.opc = p.opcGetCt then
    if f.data = Config.measData then .ok .measure else .error (.otherDataWord f.opc f.data)
  else .error (.unknownOpcode f.opc)

/-- The decoder: total on every host write and on every list of wire bytes (R80, R82, R85, R87). -/
def decode (p : Params) : Code → Except DecodeError Instr
  | .hostWrite 0 v => .ok (decodeOp (opField v))
  | .hostWrite 1 _ => .ok .abort
  | .hostWrite idx _ => .error (.notCommandRegister idx)
  | .wire [b0, b1, b2] => decodeFrame p { opc := b0, dhi := b1, dlo := b2 }
  | .wire bytes => .error (.frameLength bytes.length)

/-! ### The encoder, from the tables of R80, R82 and R86 -/

/-- TRIGGER: the GetRaw opcode and the zero data word (R86, R111). -/
def triggerFrame (p : Params) : Frame := mkFrame p.opcGetRaw Config.trigData

/-- CALIBRATE: the Calibrate opcode and 0x0800 (R86, R112). -/
def calibrateFrame (p : Params) : Frame := mkFrame p.opcCalibrate Config.calData

/-- SOFTRESET: the Reset opcode and the zero data word (R86, R113). -/
def softresetFrame (p : Params) : Frame := mkFrame p.opcReset Config.resetData

/-- MEASURE: the GetCT opcode and the bytes 0xFF, 0x00 (R86, R114). -/
def measureFrame (p : Params) : Frame := mkFrame p.opcGetCt Config.measData

/-- The value written to REQ for an `op`, with bits 31:2 taken from `z` (R43: they are ignored). -/
def reqValue (z : Word32) (op : BitVec 2) : Word32 := (z &&& 0xFFFFFFFC#32) ||| op.setWidth 32

/-- The code of an instruction with the bits the spec ignores taken from `z`: bits 31:2 of a REQ write
(R43), all 32 of an ABORT write (R82). A frame has no such bit. -/
def encodeWith (p : Params) (z : Word32) : Instr → Code
  | .init => .hostWrite 0 (reqValue z 0b00#2)
  | .reset => .hostWrite 0 (reqValue z 0b01#2)
  | .read => .hostWrite 0 (reqValue z 0b10#2)
  | .reservedOp => .hostWrite 0 (reqValue z 0b11#2)
  | .abort => .hostWrite 1 z
  | .trigger => .wire (triggerFrame p).bytes
  | .calibrate => .wire (calibrateFrame p).bytes
  | .softreset => .wire (softresetFrame p).bytes
  | .measure => .wire (measureFrame p).bytes

/-- The code of an instruction with every ignored bit 0. -/
def encode (p : Params) (i : Instr) : Code := encodeWith p 0#32 i

/-! ### The opcode table's numbering -/

/-- The code whose table bits are `w` (log 12, DESIGN CHOICE, safe). A 24-bit row is a frame, whose word
is `{opc, dhi, dlo}` (R85), so its first wire byte is bits 23:16. Every other row is a host write, whose word is the 32-bit value written
and, above bit 31, the register index: the table gives the index no bits, so a table word is a REQ write. -/
def Code.ofTableWord (nbits w : Nat) : Code :=
  if nbits = 24 then
    .wire [BitVec.ofNat 8 (w / 2 ^ 16), BitVec.ofNat 8 (w / 2 ^ 8), BitVec.ofNat 8 w]
  else .hostWrite (w / 2 ^ 32) (BitVec.ofNat 32 w)

/-- The instruction the decoder reads from a table word. -/
def decodeTableWord (nbits w : Nat) : Option Instr :=
  match decode Config.params (Code.ofTableWord nbits w) with
  | .ok i => some i
  | .error _ => none

end Sys2Proof
end

