-- ==== Sys2Proof/Machine/State.lean ====
section
/-! DEFINITION. The state of the block and of what stands around it, the reasons a step stops, and the state after
block reset. -/

namespace Sys2Proof.Machine

open Sys2Proof

/-- The sequencer's position, the element `state` (R31). The reserved encodings 0x9 to 0xF have no
value here (R49). R49 speaks of ten named states and R31's table names nine: the table is followed (log 2). -/
inductive Fsm where
  | uninit
  | initW1
  | initD1
  | initW2
  | initD2
  | ready
  | resetW
  | resetD
  | readWr
  deriving DecidableEq, Repr

/-- The response codes that are ever produced (R84). -/
inductive RspCode where
  | ok
  | transport
  | uncalibrated
  | illegal
  | aborted
  deriving DecidableEq, Repr

/-- A request of the block to the transport or the timer (R250, R251). A frame is exactly 3 bytes (R66). -/
inductive Request where
  /-- `XportWrite(addr7, bytes)`. -/
  | write (addr : Addr7) (frame : Frame)
  /-- `XportWriteRead(addr7, wbytes, n)`. -/
  | writeRead (addr : Addr7) (frame : Frame) (n : Nat)
  /-- `Delay(ms)`. -/
  | delay (ms : Nat)
  deriving DecidableEq, Repr

/-- A completion by the transport, `XportDone` (R250), with errors of the type `E` (R12). A read completion carries
exactly 7 bytes (R162). -/
inductive XportReply (E : Type) where
  | ok
  | okBuf (buf : Response)
  | err (e : E)
  deriving DecidableEq, Repr

/-- One entry of the wire transcript (R92): a request the block issued, a completion it saw, or a
request withdrawn by ABORT or BlockReset (R152, R261). -/
inductive WireEntry (E : Type) where
  | issued (r : Request)
  | xportDone (c : XportReply E)
  | timerDone
  | withdrawnXport (r : Request) (o : WireOutcome)
  | withdrawnTimer (ms : Nat)
  deriving DecidableEq, Repr

/-- An access of the host to the register view (R43), in the order its program makes them. -/
inductive HostAct where
  | write (idx : Nat) (v : Word32)
  | read (idx : Nat)
  deriving DecidableEq, Repr

/-- What a host read hands out: 32 bits, or for ERR a value of `E` (R43). -/
inductive ReadValue (E : Type) where
  | word (v : Word32)
  | err (e : E)
  deriving DecidableEq, Repr

/-- Who makes an event (R253). -/
inductive Agent where
  | host
  | xport
  | timer
  | platform
  deriving DecidableEq, Repr

/-- The machine, for any type `E` of transport errors, the open parameter of R12. The fields down to `rspErr` and
`outstanding` are the block's (R30, R44); `needsInit` is the spec's ghost (R45); the rest is the model's record of the
outside and of the run. -/
structure State.Over (E : Type) where
  /-- `state` (R31). -/
  fsm : Fsm
  /-- `rbuf[0..6]` (R33). -/
  rbuf : Response
  /-- `hum_raw` (R34). -/
  humRaw : RawCount
  /-- `temp_raw` (R35). -/
  tempRaw : RawCount
  /-- `res_valid` (R36). -/
  resValid : Bool
  /-- `rsp_valid` (R37). -/
  rspValid : Bool
  /-- `rsp_code[2:0]` (R38). -/
  rspCode : BitVec 3
  /-- `rsp_err`, a transport error or none (R39). -/
  rspErr : Option E
  /-- The outstanding request, owned by the transport or the timer (R40, R44). -/
  outstanding : Option Request
  /-- The ghost `needs_init` (R45): the block never reads it. -/
  needsInit : Bool
  /-- The run is marked faulted (R160). Model only: the hardware goes on (log 6). -/
  faulted : Bool
  /-- The wire transcript, oldest first (R68, R92, R152). Model only: never read by the block (log 7). -/
  transcript : List (WireEntry E)
  /-- Who makes the next events, first to last: the free choice of R253 as data (log 1). -/
  turns : List Agent
  /-- What the host will do, first to last (log 1). -/
  hostQ : List HostAct
  /-- What the transport will answer, first to last: the draws of R16 (log 1). -/
  xportQ : List (XportReply E)
  /-- What the last host read handed out (R253, log 8). -/
  readData : Option (ReadValue E)
  /-- How many free values the run has taken (log 4). -/
  draws : Nat
  deriving DecidableEq, Repr

/-- The machine behind the host's interface: over the numbered errors of Word.lean (log 5). -/
abbrev State : Type := State.Over XportError

/-- Why a step stops with a fault. -/
inductive Fault where
  /-- A host read of HUM or TEMP while `res_valid = 0`: R36 makes the model fault it. Raised by a host
  read only. Safe. -/
  | readWithoutResult
  /-- A host read of ERR while `rsp_err` holds no value or `rsp_code` is not TRANSPORT: R39 makes the model fault it.
  Raised by a host read only. Safe. -/
  | readWithoutError
  /-- A frame or delay was to be issued while a request is outstanding: the block never has two (R40).
  Raised by `issue`, from states no run reaches or by a frame run on its own (log 10). Safe. -/
  | requestOutstanding
  deriving DecidableEq, Repr

/-- Why a step has no meaning. -/
inductive Refusal where
  /-- An instruction that `exec` gives no meaning yet. Raised by no arm. Safe. -/
  | notModelled (mnemonic : String)
  /-- The transport or the timer would complete what is not outstanding: R162 gives that no move, A3 says
  refuse. Raised by a transport or timer turn (log 11). Safe. -/
  | noMove (a : Agent)
  deriving DecidableEq, Repr

/-- The state after block reset (R44), before any event. `rbuf`, `hum_raw`, `temp_raw` and `rsp_code` are
unspecified there: zero is the model's choice (log 3, DESIGN CHOICE, unsafe). No host program, reply or turn is placed (log 1). -/
def State.resetOf (E : Type) : State.Over E where
  fsm := .uninit
  rbuf := { b0 := 0#8, b1 := 0#8, b2 := 0#8, b3 := 0#8, b4 := 0#8, b5 := 0#8, b6 := 0#8 }
  humRaw := 0#20
  tempRaw := 0#20
  resValid := false
  rspValid := false
  rspCode := 0#3
  rspErr := none
  outstanding := none
  needsInit := true
  faulted := false
  transcript := []
  turns := []
  hostQ := []
  xportQ := []
  readData := none
  draws := 0

/-- The state after block reset of the machine over the numbered errors (log 5). -/
def State.reset : State := State.resetOf XportError

end Sys2Proof.Machine
end

