-- ==== Sys2Proof/Machine/Flags.lean ====
section
/-! DEFINITION. The status flag decoder of 42_status_decoder.md, the codes of `state` and `rsp_code`, and the flags
`busy`, `rsp_valid`, `res_valid` as STAT shows them. -/

namespace Sys2Proof.Machine

open Sys2Proof

-- The type of transport errors, the open parameter of R12.
variable {E : Type}

/-- The typed flag record the decoder makes from a status byte (R171, R174). -/
structure StatusFlags where
  busy : Bool
  mode : BitVec 2
  crc : Bool
  cal : Bool
  fifoEn : Bool
  fifoFull : Bool
  fifoEmpty : Bool
  deriving DecidableEq, Repr

/-- StatusDecode (R170, R171), with CAL_MASK a parameter (R176). -/
def statusDecode (calMask s : Byte) : StatusFlags where
  busy := s.getLsbD 7
  mode := s.extractLsb' 5 2
  crc := s.getLsbD 4
  cal := s &&& calMask != 0#8
  fifoEn := s.getLsbD 2
  fifoFull := s.getLsbD 1
  fifoEmpty := s.getLsbD 0

/-- The encoding of `state` (R31). -/
def fsmCode : Fsm → BitVec 4
  | .uninit => 0x0#4
  | .initW1 => 0x1#4
  | .initD1 => 0x2#4
  | .initW2 => 0x3#4
  | .initD2 => 0x4#4
  | .ready => 0x5#4
  | .resetW => 0x6#4
  | .resetD => 0x7#4
  | .readWr => 0x8#4

/-- The encoding of `rsp_code` (R84). -/
def rspBits : RspCode → BitVec 3
  | .ok => 0b000#3
  | .transport => 0b001#3
  | .uncalibrated => 0b010#3
  | .illegal => 0b011#3
  | .aborted => 0b100#3

/-- `busy`: the block is in a waiting state (R31, R43). -/
def isBusy : Fsm → Bool
  | .uninit | .ready => false
  | .initW1 | .initD1 | .initW2 | .initD2 | .resetW | .resetD | .readWr => true

/-- A waiting state of INIT (R150). -/
def inInit : Fsm → Bool
  | .initW1 | .initD1 | .initW2 | .initD2 => true
  | .uninit | .ready | .resetW | .resetD | .readWr => false

/-- STAT (R43, and 95_test_vectors.md Conventions):
`state << 8 | busy << 5 | res_valid << 4 | rsp_code << 1 | rsp_valid`; the other bits read 0. -/
def statWord (s : State.Over E) : Word32 :=
  ((fsmCode s.fsm).setWidth 32 <<< 8) ||| ((BitVec.ofBool (isBusy s.fsm)).setWidth 32 <<< 5) |||
    ((BitVec.ofBool s.resValid).setWidth 32 <<< 4) ||| (s.rspCode.setWidth 32 <<< 1) |||
    (BitVec.ofBool s.rspValid).setWidth 32

end Sys2Proof.Machine
end

