-- ==== Sys2Proof/Machine/Operands.lean ====
section
/-! DEFINITION. The field unpacker of 43_field_unpacker.md: two 20-bit counts from bytes 1 to 5 of a response, and
its inverse. -/

namespace Sys2Proof.Machine

open Sys2Proof

/-- The 7 bytes of a response in wire order (R89). -/
def responseBytes (buf : Response) : List Byte :=
  [buf.b0, buf.b1, buf.b2, buf.b3, buf.b4, buf.b5, buf.b6]

/-- A response from 56 bits, byte 0 the most significant. -/
def responseOfBits (w : BitVec 56) : Response where
  b0 := w.extractLsb' 48 8
  b1 := w.extractLsb' 40 8
  b2 := w.extractLsb' 32 8
  b3 := w.extractLsb' 24 8
  b4 := w.extractLsb' 16 8
  b5 := w.extractLsb' 8 8
  b6 := w.extractLsb' 0 8

/-- `zext_32` of a byte (R18). -/
def zext32 (b : Byte) : Word32 := b.setWidth 32

/-- The humidity formula on 32-bit values, `(b1 << 12) | (b2 << 4) | (b3 >> 4)` (R191). -/
def humWord (buf : Response) : Word32 :=
  (zext32 buf.b1 <<< 12) ||| (zext32 buf.b2 <<< 4) ||| (zext32 buf.b3 >>> 4)

/-- The temperature formula on 32-bit values, `((b3 & 0x0F) << 16) | (b4 << 8) | b5` (R192). -/
def tempWord (buf : Response) : Word32 :=
  ((zext32 buf.b3 &&& 0x0F#32) <<< 16) ||| (zext32 buf.b4 <<< 8) ||| zext32 buf.b5

/-- UnpackHum: the low 20 bits of the humidity formula, which has no others (R191, R195). -/
def unpackHum (buf : Response) : RawCount := (humWord buf).setWidth 20

/-- UnpackTemp: the low 20 bits of the temperature formula, which has no others (R192, R195). -/
def unpackTemp (buf : Response) : RawCount := (tempWord buf).setWidth 20

/-- The inverse of the unpacker: the response with status byte `st`, counts `h` and `t`, and byte 6 `crc` (R196). -/
def packResponse (st : Byte) (h t : RawCount) (crc : Byte) : Response where
  b0 := st
  b1 := h.extractLsb' 12 8
  b2 := h.extractLsb' 4 8
  b3 := ((h.extractLsb' 0 4).setWidth 8 <<< 4) ||| (t.extractLsb' 16 4).setWidth 8
  b4 := t.extractLsb' 8 8
  b5 := t.extractLsb' 0 8
  b6 := crc

end Sys2Proof.Machine
end

