-- ==== Sys2Proof/Machine/Ops.lean ====
section
/-! DEFINITION. The shared operations: accepting and responding, issuing and withdrawing a request, ending an
operation in error (this block's taking of an exception, R236), and the block reset. -/

namespace Sys2Proof.Machine

open Sys2Proof

-- The type of transport errors, the open parameter of R12.
variable {E : Type}

/-! ### The requests the block issues -/

/-- TRIGGER as a request: `XportWrite(0x38, [OPC_GETRAW, 0x00, 0x00])` (R111). -/
def triggerReq (p : Params) : Request := .write Config.devAddr (triggerFrame p)

/-- CALIBRATE as a request: `XportWrite(0x38, [OPC_CALIBRATE, 0x08, 0x00])` (R112). -/
def calibrateReq (p : Params) : Request := .write Config.devAddr (calibrateFrame p)

/-- SOFTRESET as a request: `XportWrite(0x38, [OPC_RESET, 0x00, 0x00])` (R113). -/
def softresetReq (p : Params) : Request := .write Config.devAddr (softresetFrame p)

/-- MEASURE as a request: `XportWriteRead(0x38, [OPC_GETCT, 0xFF, 0x00], 7)` (R114). -/
def measureReq (p : Params) : Request := .writeRead Config.devAddr (measureFrame p) Config.rdLen

/-- The request outstanding in each position (R31, R40). -/
def requestOf (p : Params) : Fsm → Option Request
  | .uninit => none
  | .initW1 => some (triggerReq p)
  | .initD1 => some (.delay Config.initDelay)
  | .initW2 => some (calibrateReq p)
  | .initD2 => some (.delay Config.initDelay)
  | .ready => none
  | .resetW => some (softresetReq p)
  | .resetD => some (.delay Config.resetDelay)
  | .readWr => some (measureReq p)

/-- The transport can complete a request of this kind in this way (R250, R162); it completes no delay. -/
def replyFits : Request → XportReply E → Bool
  | .write _ _, .ok => true
  | .write _ _, .err _ => true
  | .write _ _, .okBuf _ => false
  | .writeRead _ _ _, .okBuf _ => true
  | .writeRead _ _ _, .err _ => true
  | .writeRead _ _ _, .ok => false
  | .delay _, _ => false

/-! ### Issue and withdraw -/

/-- Append an entry to the wire transcript (R68, R92). -/
def record (e : WireEntry E) (s : State.Over E) : State.Over E :=
  { s with transcript := s.transcript ++ [e] }

/-- The state with `r` issued: outstanding and recorded (R40, R68). -/
def opened (r : Request) (s : State.Over E) : State.Over E :=
  record (.issued r) { s with outstanding := some r }

/-- Issue a request (R20, R21, R250, R251). With one outstanding it is a fault: the block never has two (R40, log 10). -/
def issue (r : Request) (s : State.Over E) : Host.Outcome (State.Over E) Fault Refusal :=
  if s.outstanding.isSome then .fault .requestOutstanding
  else .next (opened r s)

/-- The outstanding request is complete and the completion recorded (R69). -/
def completed (e : WireEntry E) (s : State.Over E) : State.Over E :=
  record e { s with outstanding := none }

/-- Withdraw the outstanding request (R152): its completion never reaches the block. What a transport
request did on the wire is a free value (log 4); a timer request simply ends. -/
def withdraw (s : State.Over E) : State.Over E :=
  match s.outstanding with
  | none => s
  | some (.delay ms) => completed (.withdrawnTimer ms) s
  | some r =>
    { completed (.withdrawnXport r (Config.freeWireOutcome s.draws)) s with draws := s.draws + 1 }

/-! ### Accept, respond, and the end of an operation -/

/-- `Accept()`: `rsp_valid <- 0; res_valid <- 0; rsp_err <- none` (41_sequencer.md conventions, R36, R37). -/
def accept (s : State.Over E) : State.Over E :=
  { s with rspValid := false, resValid := false, rspErr := none }

/-- `Respond(c)`: `rsp_code <- c; rsp_valid <- 1` (41_sequencer.md conventions, R37). -/
def respond (c : RspCode) (s : State.Over E) : State.Over E :=
  { s with rspCode := rspBits c, rspValid := true }

/-- Error entry (R236): the ending step writes the code, sets `rsp_valid` and moves the position to `dest`. -/
def errorEntry (c : RspCode) (dest : Fsm) (s : State.Over E) : State.Over E :=
  respond c { s with fsm := dest }

/-- The TRANSPORT error (R230): the error value is recorded unchanged. -/
def transportError (e : E) (dest : Fsm) (s : State.Over E) : State.Over E :=
  errorEntry .transport dest { s with rspErr := some e }

/-- The ILLEGAL response (R160, R232): `Accept(); Respond(ILLEGAL)`, the position unchanged, the run marked faulted (log 6). -/
def illegal (s : State.Over E) : State.Over E :=
  errorEntry .illegal s.fsm { accept s with faulted := true }

/-- Where an operation cancelled or failed leaves the block: no driver after INIT, the driver otherwise (R128, R150, R233). -/
def cancelledTo (f : Fsm) : Fsm := if inInit f then .uninit else .ready

/-! ### Block reset -/

/-- BlockReset (R260, R261): withdraw, then every element at its value of R44; the unspecified ones are free
values (log 4). Nothing is sent and no response is written. The queues of the outside and the run's fault mark stay (log 6). -/
def blockReset (s : State.Over E) : State.Over E :=
  let w := withdraw s
  { w with
    fsm := .uninit
    rbuf := responseOfBits (Config.freeRbuf w.draws)
    humRaw := Config.freeHum w.draws
    tempRaw := Config.freeTemp w.draws
    resValid := false
    rspValid := false
    rspCode := Config.freeRspCode w.draws
    rspErr := none
    needsInit := true
    draws := w.draws + 1 }

/-! ### Host requests -/

/-- A host request (R160, R161): while busy it is not taken and nothing changes (the step then keeps it with the host, log 15);
illegal in this state, it is answered ILLEGAL; else it is accepted and `start` runs. -/
def hostRequest (legal : Bool) (start : State.Over E → Host.Outcome (State.Over E) Fault Refusal) (s : State.Over E) :
    Host.Outcome (State.Over E) Fault Refusal :=
  if isBusy s.fsm then .next s
  else if legal then start (accept s)
  else .next (illegal s)

end Sys2Proof.Machine
end

