-- ==== Sys2Proof/Machine/WireCommands.lean ====
section
/-! DEFINITION. The meanings of the four wire command frames (40_wire_commands.md): each issues its transport
request, writes no flag, and is answered in a later step. The position is set by the operation that sends it (log 17). -/

namespace Sys2Proof.Machine

open Sys2Proof

-- The type of transport errors, the open parameter of R12.
variable {E : Type}

/-! ### For every parameter set (R10, R48) -/

/-- TRIGGER (R111). -/
def sendTrigger (p : Params) (s : State.Over E) : Host.Outcome (State.Over E) Fault Refusal :=
  issue (triggerReq p) s

/-- CALIBRATE (R112). -/
def sendCalibrate (p : Params) (s : State.Over E) : Host.Outcome (State.Over E) Fault Refusal :=
  issue (calibrateReq p) s

/-- SOFTRESET (R113). -/
def sendSoftreset (p : Params) (s : State.Over E) : Host.Outcome (State.Over E) Fault Refusal :=
  issue (softresetReq p) s

/-- MEASURE (R114). -/
def sendMeasure (p : Params) (s : State.Over E) : Host.Outcome (State.Over E) Fault Refusal :=
  issue (measureReq p) s

/-! ### The machine behind the host's interface (log 9) -/

/-- TRIGGER (R111). -/
def execTrigger (s : State) : Host.Outcome State Fault Refusal := sendTrigger Config.params s

/-- CALIBRATE (R112). -/
def execCalibrate (s : State) : Host.Outcome State Fault Refusal := sendCalibrate Config.params s

/-- SOFTRESET (R113). -/
def execSoftreset (s : State) : Host.Outcome State Fault Refusal := sendSoftreset Config.params s

/-- MEASURE (R114). -/
def execMeasure (s : State) : Host.Outcome State Fault Refusal := sendMeasure Config.params s

end Sys2Proof.Machine
end

