-- ==== Sys2Proof/Machine/HostOps.lean ====
section
/-! DEFINITION. The meanings of the host operations (41_sequencer.md): the accept step of INIT, RESET and READ, the
reserved op, and ABORT. The later steps of an operation are in Completions.lean. -/

namespace Sys2Proof.Machine

open Sys2Proof

-- The type of transport errors, the open parameter of R12.
variable {E : Type}

/-! ### For every parameter set (R10, R14, R48) -/

/-- INIT (R120, R127): legal in both idle states. The ghost is set as R120's pseudocode sets it. -/
def requestInit (p : Params) (s : State.Over E) : Host.Outcome (State.Over E) Fault Refusal :=
  hostRequest true (fun t => sendTrigger p { t with needsInit := true, fsm := .initW1 }) s

/-- RESET (R130): legal in READY only. -/
def requestReset (p : Params) (s : State.Over E) : Host.Outcome (State.Over E) Fault Refusal :=
  hostRequest (s.fsm == .ready)
    (fun t => sendSoftreset p { t with needsInit := true, fsm := .resetW }) s

/-- READ (R140): legal in READY only. It does not consult `needs_init` (R145). -/
def requestRead (p : Params) (s : State.Over E) : Host.Outcome (State.Over E) Fault Refusal :=
  hostRequest (s.fsm == .ready) (fun t => sendMeasure p { t with fsm := .readWr }) s

/-- The reserved op 0b11 (R160): illegal in either idle state. -/
def requestReserved (s : State.Over E) : Host.Outcome (State.Over E) Fault Refusal :=
  hostRequest false .next s

/-- ABORT for either value of HAS_ABORT: in a waiting state the operation is cancelled (R150, R152); in an idle
state nothing changes (R151); without HAS_ABORT the write is ignored (R153). -/
def abortWith (hasAbort : Bool) (s : State.Over E) : State.Over E :=
  if hasAbort && isBusy s.fsm then
    errorEntry .aborted (cancelledTo s.fsm) { withdraw s with needsInit := true }
  else s

/-- A write to register 1 (R82, R150, R151, R153). -/
def writeAbort (p : Params) (s : State.Over E) : Host.Outcome (State.Over E) Fault Refusal :=
  .next (abortWith p.hasAbort s)

/-! ### The machine behind the host's interface (log 9) -/

/-- INIT (R120, R127). -/
def execInit (s : State) : Host.Outcome State Fault Refusal := requestInit Config.params s

/-- RESET (R130). -/
def execReset (s : State) : Host.Outcome State Fault Refusal := requestReset Config.params s

/-- READ (R140). -/
def execRead (s : State) : Host.Outcome State Fault Refusal := requestRead Config.params s

/-- The reserved op (R160). -/
def execReservedOp (s : State) : Host.Outcome State Fault Refusal := requestReserved s

/-- ABORT (R150, R151). -/
def execAbort (s : State) : Host.Outcome State Fault Refusal := writeAbort Config.params s

end Sys2Proof.Machine
end

