-- ==== Sys2Proof/Machine/Dispatch.lean ====
section
/-! DEFINITION. One arm per instruction. -/

namespace Sys2Proof.Machine

open Sys2Proof

def exec (i : Instr) (s : State) : Host.Outcome State Fault Refusal :=
  match i with
  -- host operations (41_sequencer.md)
  | .init => Sys2Proof.Machine.execInit s
  | .reset => Sys2Proof.Machine.execReset s
  | .read => Sys2Proof.Machine.execRead s
  | .reservedOp => Sys2Proof.Machine.execReservedOp s
  | .abort => Sys2Proof.Machine.execAbort s
  -- wire commands (40_wire_commands.md)
  | .trigger => Sys2Proof.Machine.execTrigger s
  | .calibrate => Sys2Proof.Machine.execCalibrate s
  | .softreset => Sys2Proof.Machine.execSoftreset s
  | .measure => Sys2Proof.Machine.execMeasure s

end Sys2Proof.Machine
end

