-- ==== Sys2Proof/Machine/Completions.lean ====
section
/-! DEFINITION. The steps a transport or timer completion makes (R121 to R143, R156). -/

namespace Sys2Proof.Machine

open Sys2Proof

-- The type of transport errors, the open parameter of R12.
variable {E : Type}

/-- READ_WR completes OK with `buf` (R141, R142), for any CAL_MASK: `rbuf` is always written; the result registers only
when the calibration check passes. -/
def readDone (calMask : Byte) (buf : Response) (s : State.Over E) : State.Over E :=
  let t := { s with rbuf := buf }
  if (statusDecode calMask buf.b0).cal then
    respond .ok { t with
      humRaw := unpackHum buf, tempRaw := unpackTemp buf, resValid := true, fsm := .ready }
  else errorEntry .uncalibrated .ready t

/-- INIT fails (R122, R124, R128): UNINIT, the error recorded; the ghost is true after an INIT failure (R45). -/
def initFailed (e : E) (s : State.Over E) : State.Over E :=
  transportError e .uninit { s with needsInit := true }

/-- The row of R156's table for a transport completion, the outstanding request already completed. -/
def xportStep (p : Params) (c : XportReply E) (s : State.Over E) : Host.Outcome (State.Over E) Fault Refusal :=
  match s.fsm, c with
  | .initW1, .ok => issue (.delay Config.initDelay) { s with fsm := .initD1 }
  | .initW1, .err e => .next (initFailed e s)
  | .initW2, .ok => issue (.delay Config.initDelay) { s with fsm := .initD2 }
  | .initW2, .err e => .next (initFailed e s)
  | .resetW, .ok => issue (.delay Config.resetDelay) { s with fsm := .resetD }
  | .resetW, .err e => .next (transportError e .ready s)
  | .readWr, .okBuf buf => .next (readDone p.calMask buf s)
  | .readWr, .err e => .next (transportError e .ready s)
  | _, _ => .refused (.noMove .xport)

/-- `XportDone(c)`: a move only while a transport request of the matching kind is outstanding (R162, R253). -/
def xportDone (p : Params) (c : XportReply E) (s : State.Over E) : Host.Outcome (State.Over E) Fault Refusal :=
  match s.outstanding with
  | none => .refused (.noMove .xport)
  | some r =>
    if replyFits r c then xportStep p c (completed (.xportDone c) s)
    else .refused (.noMove .xport)

/-- The row of R156's table for a timer completion, the outstanding request already completed (R123, R126, R133). -/
def timerStep (p : Params) (s : State.Over E) : Host.Outcome (State.Over E) Fault Refusal :=
  match s.fsm with
  | .initD1 => sendCalibrate p { s with fsm := .initW2 }
  | .initD2 => .next (respond .ok { s with fsm := .ready, needsInit := false })
  | .resetD => .next (respond .ok { s with fsm := .ready })
  | .uninit | .initW1 | .initW2 | .ready | .resetW | .readWr => .refused (.noMove .timer)

/-- `TimerDone`: a move only while a timer request is outstanding (R162, R253). -/
def timerDone (p : Params) (s : State.Over E) : Host.Outcome (State.Over E) Fault Refusal :=
  match s.outstanding with
  | some (.delay _) => timerStep p (completed .timerDone s)
  | some (.write _ _) | some (.writeRead _ _ _) | none => .refused (.noMove .timer)

end Sys2Proof.Machine
end

