-- ==== Sys2Proof/Machine/HostView.lean ====
section
/-! DEFINITION. The host's register view (R43): what a read of each index gives. -/

namespace Sys2Proof.Machine

open Sys2Proof

-- The type of transport errors, the open parameter of R12.
variable {E : Type}

/-- HUM and TEMP: the count in bits 19:0, bits 31:20 zero; without a valid result the model faults the read (R36, R43). -/
def resultRead (s : State.Over E) (v : RawCount) : Except Fault (ReadValue E) :=
  if s.resValid then .ok (.word (v.setWidth 32)) else .error .readWithoutResult

/-- ERR: the error held; when `rsp_code` is not TRANSPORT or none is held, the model faults the read (R39, R43). -/
def errorRead (s : State.Over E) : Except Fault (ReadValue E) :=
  if s.rspCode = rspBits .transport then
    match s.rspErr with
    | some e => .ok (.err e)
    | none => .error .readWithoutError
  else .error .readWithoutError

/-- The value of register `idx` (R43): STAT, HUM, TEMP, ERR; REQ, ABORT and an index above 5 read 0. -/
def readRegister (idx : Nat) (s : State.Over E) : Except Fault (ReadValue E) :=
  match idx with
  | 2 => .ok (.word (statWord s))
  | 3 => resultRead s s.humRaw
  | 4 => resultRead s s.tempRaw
  | 5 => errorRead s
  | _ => .ok (.word 0#32)

/-- `HostRead(idx)` (R253): hands out the register and changes nothing of the block (R43). -/
def hostRead (idx : Nat) (s : State.Over E) : Host.Outcome (State.Over E) Fault Refusal :=
  match readRegister idx s with
  | .ok v => .next { s with readData := some v }
  | .error f => .fault f

end Sys2Proof.Machine
end

