-- ==== Sys2Proof/Machine/Events.lean ====
section
/-! DEFINITION. The events of R253, one turn of one agent each, and the placing of an instruction's code where the
next step takes it. -/

namespace Sys2Proof.Machine

open Sys2Proof

-- The type of transport errors, the open parameter of R12.
variable {E : Type}

/-- What runs a decoded instruction: `exec` for the machine behind the host's interface, `execOver` of Parametric.lean for
every other. -/
abbrev Runner (E : Type) : Type := Instr → State.Over E → Host.Outcome (State.Over E) Fault Refusal

/-- The host's turn: its next access. A request while busy is not taken and stays with the host (R161, log 15). A
write that is no command is ignored (R43). With nothing left to do, nothing happens. -/
def hostTurn (p : Params) (run : Runner E) (s : State.Over E) :
    Host.Outcome (State.Over E) Fault Refusal :=
  match s.hostQ with
  | [] => .next s
  | .read idx :: q => hostRead idx { s with hostQ := q }
  | .write idx v :: q =>
    if idx = 0 ∧ isBusy s.fsm = true then .next s
    else
      match decode p (.hostWrite idx v) with
      | .ok i => run i { s with hostQ := q }
      | .error _ => .next { s with hostQ := q }

/-- The transport's turn: its next completion. With none to offer it has not completed yet (R250, R254). -/
def xportTurn (p : Params) (s : State.Over E) : Host.Outcome (State.Over E) Fault Refusal :=
  match s.xportQ with
  | [] => .next s
  | c :: q => xportDone p c { s with xportQ := q }

/-- One event of one agent (R253). -/
def turnOf (p : Params) (run : Runner E) (a : Agent) (s : State.Over E) :
    Host.Outcome (State.Over E) Fault Refusal :=
  match a with
  | .host => hostTurn p run s
  | .xport => xportTurn p s
  | .timer => timerDone p s
  | .platform => .next (blockReset s)

/-- One step (R21): the agent whose turn it is makes its event. With no turn placed no event occurs and the block waits (R262, log 1). -/
def stepOnce (p : Params) (run : Runner E) (s : State.Over E) :
    Host.Outcome (State.Over E) Fault Refusal :=
  match s.turns with
  | [] => .next s
  | a :: ts => turnOf p run a { s with turns := ts }

/-- Let the host's next access be a write of `v` to `idx`, and the host's turn be next. -/
def placeWrite (idx : Nat) (v : Word32) (s : State.Over E) : State.Over E :=
  { s with hostQ := .write idx v :: s.hostQ, turns := .host :: s.turns }

/-- Put the sequencer at the point from which the very next step sends this frame (log 13, R110, R115): an idle state and the
INIT request for TRIGGER; the end of the first delay for CALIBRATE; READY and the RESET or READ request for SOFTRESET and MEASURE. -/
def placeFrame (i : Instr) (s : State.Over E) : State.Over E :=
  match i with
  | .trigger =>
    placeWrite 0 (reqValue 0#32 0b00#2)
      { s with fsm := if isBusy s.fsm then .uninit else s.fsm, outstanding := none }
  | .calibrate =>
    { s with fsm := .initD1, outstanding := some (.delay Config.initDelay), turns := .timer :: s.turns }
  | .softreset => placeWrite 0 (reqValue 0#32 0b01#2) { s with fsm := .ready, outstanding := none }
  | .measure => placeWrite 0 (reqValue 0#32 0b10#2) { s with fsm := .ready, outstanding := none }
  | .init | .reset | .read | .reservedOp | .abort => s

/-- Place a code where the next step takes it: a host write at the head of the host's program; a frame at
the sequencer's own point of sending it. Bytes that are no frame the block can send stand nowhere (R87). -/
def placeCode (p : Params) (c : Code) (s : State.Over E) : State.Over E :=
  match c with
  | .hostWrite idx v => placeWrite idx v s
  | .wire bytes =>
    match decode p (.wire bytes) with
    | .ok i => placeFrame i s
    | .error _ => s

end Sys2Proof.Machine
end

