-- ==== Sys2Proof/Machine/Step.lean ====
section
/-! DEFINITION. The step and the placing of a table word before it. -/

namespace Sys2Proof.Machine

open Sys2Proof

/-- One step of the machine behind the host's interface: one event of one agent (R21, R253), with the parameter values of
`Config.params` and numbered errors (log 5, log 9). `stepOver` of Parametric.lean is the step for every parameter. -/
def step (s : State) : Host.Outcome State Fault Refusal := stepOnce Config.params exec s

/-- `s` with the instruction whose table bits are `w` placed so that the next step runs it (log 12, log 13). -/
def State.withFetchWord (s : State) (nbits w : Nat) : State :=
  placeCode Config.params (Code.ofTableWord nbits w) s

end Sys2Proof.Machine
end

