-- ==== Sys2Proof/Machine/Convert.lean ====
section
/-! DEFINITION. The host-side value functions of 44_value_conversion.md, outside the block (R6, R94): Humidity,
Temperature, `raw()`, and the two binary32 conversions. -/

namespace Sys2Proof.Machine

open Sys2Proof

/-- A humidity value: one raw count (R210). -/
structure Humidity where
  count : RawCount
  deriving DecidableEq, Repr

/-- A temperature value: one raw count (R211). -/
structure Temperature where
  count : RawCount
  deriving DecidableEq, Repr

/-- Build a Humidity from a number; 2^20 or more is refused (R210, R218). -/
def humidityOf (n : Nat) : Option Humidity :=
  if rawCountWf n then some { count := BitVec.ofNat 20 n } else none

/-- Build a Temperature from a number; 2^20 or more is refused (R211, R218). -/
def temperatureOf (n : Nat) : Option Temperature :=
  if rawCountWf n then some { count := BitVec.ofNat 20 n } else none

/-- `Humidity::raw()`, a `u32` (R210). -/
def humidityRaw (h : Humidity) : Word32 := h.count.setWidth 32

/-- `Temperature::raw()`, a `u32` (R211). -/
def temperatureRaw (t : Temperature) : Word32 := t.count.setWidth 32

/-! ### binary32 -/

/-- An exact real `num * 2^exp`, the values the conversions pass through. -/
structure Exact where
  num : Int
  exp : Int
  deriving DecidableEq, Repr

/-- The rational number an `Exact` stands for. -/
def exactValue (x : Exact) : Rat := x.num * (2 : Rat) ^ x.exp

/-- A natural number rounded to 24 significant bits, ties to even. -/
def round24 (m : Nat) : Nat :=
  let len := Nat.log2 m + 1
  if len ≤ 24 then m
  else
    let k := len - 24
    let q := m / 2 ^ k
    let r := m % 2 ^ k
    let half := 2 ^ (k - 1)
    (if half < r ∨ (r = half ∧ q % 2 = 1) then q + 1 else q) * 2 ^ k

/-- `rnd`: the nearest binary32 value, ties to even (44_value_conversion.md notation, D22). The exponent range is taken as
unbounded: nothing in the conversions is subnormal or overflows (R214, R216, log 14). -/
def rnd (x : Exact) : Exact :=
  { x with num := if x.num < 0 then -(round24 x.num.natAbs : Int) else (round24 x.num.natAbs : Int) }

/-- Division by 2^k, exact. -/
def divPow2 (x : Exact) (k : Nat) : Exact := { x with exp := x.exp - k }

/-- The exact difference of `x` and a natural number. -/
def subNat (x : Exact) (n : Nat) : Exact :=
  if x.exp ≤ 0 then { x with num := x.num - n * 2 ^ (-x.exp).toNat }
  else { num := x.num * 2 ^ x.exp.toNat - n, exp := 0 }

/-- The binary32 bit pattern of a representable value in the normal range; zero is positive zero. -/
def f32Bits (x : Exact) : Word32 :=
  if x.num = 0 then 0#32
  else
    let m := x.num.natAbs
    let len := Nat.log2 m + 1
    let sig := if len ≤ 24 then m * 2 ^ (24 - len) else m / 2 ^ (len - 24)
    let biased := (x.exp + len + 126).toNat
    (BitVec.ofNat 32 (if x.num < 0 then 1 else 0) <<< 31) ||| (BitVec.ofNat 32 biased <<< 23) |||
      BitVec.ofNat 32 (sig % 2 ^ 23)

/-- The value of `relative_humidity_percent(r)`: `rnd(rnd(100 * r) / 1048576)` (R212). -/
def humidityPercent (r : RawCount) : Exact :=
  rnd (divPow2 (rnd { num := 100 * (r.toNat : Int), exp := 0 }) 20)

/-- The value of `celsius(r)`: `rnd(rnd(rnd(200 * r) / 1048576) - 50)` (R213). -/
def celsiusDegrees (r : RawCount) : Exact :=
  rnd (subNat (rnd (divPow2 (rnd { num := 200 * (r.toNat : Int), exp := 0 }) 20)) 50)

/-- `relative_humidity_percent` as an f32 (R212). -/
def relativeHumidityPercent (h : Humidity) : Word32 := f32Bits (humidityPercent h.count)

/-- `celsius` as an f32 (R213). -/
def celsius (t : Temperature) : Word32 := f32Bits (celsiusDegrees t.count)

end Sys2Proof.Machine
end

