-- ==== Sys2Proof/Machine/HostProgram.lean ====
section
/-! DEFINITION. The host program text and the wire transcript text (R92), and the fixed expansions of the host
operations (R93). -/

namespace Sys2Proof.Machine

open Sys2Proof

-- The type of transport errors, the open parameter of R12.
variable {E : Type}

/-- The requests a host operation issues when nothing fails, in order (R93). -/
def expansion (p : Params) : Instr → List Request
  | .init => [triggerReq p, .delay Config.initDelay, calibrateReq p, .delay Config.initDelay]
  | .reset => [softresetReq p, .delay Config.resetDelay]
  | .read => [measureReq p]
  | .reservedOp | .abort => []
  | .trigger => [triggerReq p]
  | .calibrate => [calibrateReq p]
  | .softreset => [softresetReq p]
  | .measure => [measureReq p]

/-- One line of a host program: nothing, an operation, or no line of the language. -/
inductive HostLine where
  | blank
  | op (i : Instr)
  | bad
  deriving DecidableEq, Repr

/-- A line without its comment and the blanks around it. -/
def lineBody (cs : List Char) : List Char :=
  let body := (cs.takeWhile fun c => c != ';').dropWhile fun c => c == ' '
  (body.reverse.dropWhile fun c => c == ' ').reverse

/-- Read one line (R92): `INIT`, `RESET`, `READ` or `ABORT`; `;` starts a comment (blanks and empty lines: log 16). -/
def parseLine (cs : List Char) : HostLine :=
  let body := lineBody cs
  if body = [] then .blank
  else if body = "INIT".toList then .op .init
  else if body = "RESET".toList then .op .reset
  else if body = "READ".toList then .op .read
  else if body = "ABORT".toList then .op .abort
  else .bad

/-- The host access of an operation: its REQ write, or for ABORT a write to register 1 (R92). -/
def hostActOf (p : Params) (i : Instr) : Option HostAct :=
  match encode p i with
  | .hostWrite idx v => some (.write idx v)
  | .wire _ => none

/-- A program's lines as the host's accesses; none if some line is not of the language (R92). -/
def assemble (p : Params) : List (List Char) → Option (List HostAct)
  | [] => some []
  | l :: ls =>
    match parseLine l, assemble p ls with
    | .blank, rest => rest
    | .op i, some rest => (hostActOf p i).map fun a => a :: rest
    | .op _, none => none
    | .bad, _ => none

/-- A hexadecimal digit. -/
def hexDigit (n : Nat) : Char :=
  ("0123456789ABCDEF".toList).getD (n % 16) '0'

/-- A byte as two hexadecimal digits (R92). -/
def hexByte (b : Byte) : List Char := [hexDigit (b.toNat / 16), hexDigit b.toNat]

/-- Bytes separated by blanks (R92). -/
def hexBytes (bs : List Byte) : List Char :=
  (bs.map hexByte).intersperse [' '] |>.flatten

/-- An address as two hexadecimal digits (R92). -/
def hexAddr (a : Addr7) : List Char := hexByte (a.setWidth 8)

/-- A request in transcript form (R92). -/
def requestText : Request → List Char
  | .write a f => "W ".toList ++ hexAddr a ++ ": ".toList ++ hexBytes f.bytes
  | .writeRead a f n =>
    "WR ".toList ++ hexAddr a ++ ": ".toList ++ hexBytes f.bytes ++ " / ".toList ++ Nat.toDigits 10 n
  | .delay ms => "D ".toList ++ Nat.toDigits 10 ms

/-- The name of a numbered error, as 95_test_vectors.md names errors: `e1`, `e2`. -/
def errorName (e : XportError) : List Char := "e".toList ++ Nat.toDigits 10 e.tag

/-- A transcript entry in text form (R92), an error's text given by `errText`; a withdrawn request is shown
as 95_test_vectors.md shows it. -/
def entryText (errText : E → List Char) : WireEntry E → List Char
  | .issued r => requestText r
  | .xportDone .ok => "-> ok".toList
  | .xportDone (.okBuf b) => "-> ok [".toList ++ hexBytes (responseBytes b) ++ "]".toList
  | .xportDone (.err e) => "-> err(".toList ++ errText e ++ ")".toList
  | .timerDone => "-> done".toList
  | .withdrawnXport _ _ | .withdrawnTimer _ => "(withdrawn)".toList

end Sys2Proof.Machine
end

