-- ==== Sys2Proof/Machine/Parametric.lean ====
section
/-! DEFINITION. The machine for every value of the open parameters (R48): the opcodes, CAL_MASK and HAS_ABORT as a
`Params`, and the error type `E` as a type. `exec`, `step` and `core` are this machine at `Config.params` and numbered errors. -/

namespace Sys2Proof.Machine

open Sys2Proof

-- The type of transport errors, the open parameter of R12.
variable {E : Type}

/-- The meaning of every instruction, for every parameter set (R10, R14, R48). -/
def execOver (p : Params) (i : Instr) (s : State.Over E) : Host.Outcome (State.Over E) Fault Refusal :=
  match i with
  | .init => requestInit p s
  | .reset => requestReset p s
  | .read => requestRead p s
  | .reservedOp => requestReserved s
  | .abort => writeAbort p s
  | .trigger => sendTrigger p s
  | .calibrate => sendCalibrate p s
  | .softreset => sendSoftreset p s
  | .measure => sendMeasure p s

/-- The step relation with its parameters (R21, R48, R253). -/
def stepOver (p : Params) (s : State.Over E) : Host.Outcome (State.Over E) Fault Refusal :=
  stepOnce p (execOver p) s

/-- The machine of a parameter set and an error type (R48). -/
def coreOver (E : Type) (p : Params) : Host.Core :=
  { State := State.Over E, Fault := Fault, Refusal := Refusal, step := stepOver p, reset := State.resetOf E }

end Sys2Proof.Machine
end

