-- ==== Sys2Proof/Safety.lean ====
section
/-! DEFINITION. The terms the claims use: invariants of the block and of its wire record, trust, progress, and the
comparisons between two runs. -/

namespace Sys2Proof.Machine

open Sys2Proof

-- Types of transport errors, the open parameter of R12.
variable {E E' : Type}

/-! ### Invariants -/

/-- The outstanding request is the one the position names, and none in an idle state (R31, R40). -/
def oneRequest (p : Params) (s : State.Over E) : Prop :=
  s.outstanding = requestOf p s.fsm

/-- While busy neither a response nor a result is shown (R36, R37, R150). -/
def quietWhileBusy (s : State.Over E) : Prop :=
  isBusy s.fsm = true → s.rspValid = false ∧ s.resValid = false

/-- An error is held exactly when the last finished operation ended with TRANSPORT (R39). -/
def errorHeldWithTransport (s : State.Over E) : Prop :=
  s.rspErr.isSome = true ↔ (s.rspValid = true ∧ s.rspCode = rspBits .transport)

/-- A shown response carries no reserved code (R84). -/
def responseCodeKnown (s : State.Over E) : Prop :=
  s.rspValid = true → s.rspCode.toNat ≤ 4

/-- A shown result is the one reading in `rbuf`, taken with CALIBRATION_ENABLE set, by a READ that ended OK in READY
(R36, R142, R172, R199). -/
def resultFromOneReading (p : Params) (s : State.Over E) : Prop :=
  s.resValid = true →
    s.fsm = .ready ∧ s.rspValid = true ∧ s.rspCode = rspBits .ok ∧
    s.humRaw = unpackHum s.rbuf ∧ s.tempRaw = unpackTemp s.rbuf ∧
    (statusDecode p.calMask s.rbuf.b0).cal = true

/-- The ghost is false only where a driver initialised OK still stands (R45, R273). -/
def trustOnlyAfterInit (s : State.Over E) : Prop :=
  s.needsInit = false → s.fsm = .ready ∨ s.fsm = .readWr

/-- The block's invariant. -/
def BlockInv (p : Params) (s : State.Over E) : Prop :=
  oneRequest p s ∧ quietWhileBusy s ∧ errorHeldWithTransport s ∧ responseCodeKnown s ∧
    resultFromOneReading p s ∧ trustOnlyAfterInit s

/-- The only requests the block ever issues: the four frames to 0x38 and the two delays (R61, R66, R86, R87, R13). -/
def legalRequest (p : Params) (r : Request) : Prop :=
  r = .write 0x38#7 { opc := p.opcGetRaw, dhi := 0x00#8, dlo := 0x00#8 } ∨
  r = .write 0x38#7 { opc := p.opcCalibrate, dhi := 0x08#8, dlo := 0x00#8 } ∨
  r = .write 0x38#7 { opc := p.opcReset, dhi := 0x00#8, dlo := 0x00#8 } ∨
  r = .writeRead 0x38#7 { opc := p.opcGetCt, dhi := 0xFF#8, dlo := 0x00#8 } 7 ∨
  r = .delay 300 ∨ r = .delay 20

/-- The requests still open after a transcript: issued, and neither completed nor withdrawn. -/
def openAfter (opened : List Request) : List (WireEntry E) → List Request
  | [] => opened
  | .issued r :: es => openAfter (opened ++ [r]) es
  | .xportDone _ :: es => openAfter (opened.drop 1) es
  | .timerDone :: es => openAfter (opened.drop 1) es
  | .withdrawnXport _ _ :: es => openAfter (opened.drop 1) es
  | .withdrawnTimer _ :: es => openAfter (opened.drop 1) es

/-- The wire record's invariant: only legal requests were issued, and those still open are the one outstanding, if any (R40, R69). -/
def WireInv (p : Params) (s : State.Over E) : Prop :=
  (∀ r, .issued r ∈ s.transcript → legalRequest p r) ∧
    openAfter [] s.transcript = s.outstanding.toList

/-! ### Safe runs and trust -/

/-- The run is not marked faulted: no illegal request was made (R160). -/
def cleanRun (s : State.Over E) : Prop := s.faulted = false

/-- A reading is shown and is trustworthy in the source's sense (R45, R273). -/
def trustworthy (s : State.Over E) : Prop := s.resValid = true ∧ s.needsInit = false

/-! ### Progress -/

/-- How many completions a position is from its idle state (R31, R47). -/
def remaining : Fsm → Nat
  | .uninit => 0
  | .initW1 => 4
  | .initD1 => 3
  | .initW2 => 2
  | .initD2 => 1
  | .ready => 0
  | .resetW => 2
  | .resetD => 1
  | .readWr => 1

/-! ### Two runs compared -/

/-- Apply `f` to the state of an outcome. -/
def mapNext (f : State.Over E → State.Over E') :
    Host.Outcome (State.Over E) Fault Refusal → Host.Outcome (State.Over E') Fault Refusal
  | .next s => .next (f s)
  | .fault r => .fault r
  | .refused r => .refused r

/-- Rename the transport errors in a reply. -/
def renameReply (f : E → E') : XportReply E → XportReply E'
  | .ok => .ok
  | .okBuf b => .okBuf b
  | .err e => .err (f e)

/-- Rename the transport errors in a transcript entry. -/
def renameEntry (f : E → E') : WireEntry E → WireEntry E'
  | .issued r => .issued r
  | .xportDone c => .xportDone (renameReply f c)
  | .timerDone => .timerDone
  | .withdrawnXport r o => .withdrawnXport r o
  | .withdrawnTimer ms => .withdrawnTimer ms

/-- Rename the transport errors in what a host read handed out. -/
def renameRead (f : E → E') : ReadValue E → ReadValue E'
  | .word v => .word v
  | .err e => .err (f e)

/-- Rename every transport error a state holds. -/
def renameErrors (f : E → E') (s : State.Over E) : State.Over E' :=
  { fsm := s.fsm, rbuf := s.rbuf, humRaw := s.humRaw, tempRaw := s.tempRaw, resValid := s.resValid
    rspValid := s.rspValid, rspCode := s.rspCode, rspErr := s.rspErr.map f
    outstanding := s.outstanding, needsInit := s.needsInit, faulted := s.faulted
    transcript := s.transcript.map (renameEntry f), turns := s.turns, hostQ := s.hostQ
    xportQ := s.xportQ.map (renameReply f), readData := s.readData.map (renameRead f)
    draws := s.draws }

/-- A state with the ghost, the fault mark and the last read's value set to given ones. -/
def withModelOnly (g m : Bool) (d : Option (ReadValue E)) (s : State.Over E) : State.Over E :=
  { s with needsInit := g, faulted := m, readData := d }

/-- Two states agree on the position, the request outstanding, the error held, and all the outside will do; they may
differ in the readings, the response, the ghost and the records (R32). -/
def sameCourse (s t : State.Over E) : Prop :=
  s.fsm = t.fsm ∧ s.outstanding = t.outstanding ∧ s.rspErr = t.rspErr ∧ s.turns = t.turns ∧
    s.hostQ = t.hostQ ∧ s.xportQ = t.xportQ ∧ s.draws = t.draws

/-- The next event is a host read. -/
def nextIsHostRead (s : State.Over E) : Bool :=
  match s.turns, s.hostQ with
  | .host :: _, .read _ :: _ => true
  | _, _ => false

/-- Two outcomes from `s` and `t` take the same course: both stop for the same reason, or both go on to states that
agree again, having added the same entries to the transcript; and where an operation ended, with the same response. -/
def sameOutcome (s t : State.Over E) :
    Host.Outcome (State.Over E) Fault Refusal → Host.Outcome (State.Over E) Fault Refusal → Prop
  | .next s', .next t' =>
    sameCourse s' t' ∧
      (isBusy s.fsm = true → isBusy s'.fsm = false →
        s'.rspCode = t'.rspCode ∧ s'.rspValid = t'.rspValid) ∧
      ∃ es, s'.transcript = s.transcript ++ es ∧ t'.transcript = t.transcript ++ es
  | .fault a, .fault b => a = b
  | .refused a, .refused b => a = b
  | _, _ => False

end Sys2Proof.Machine
end

