-- ==== Sys2Proof/Certificates/Slice0/Obligations.lean ====
section
/-! DEFINITION. The statements for the provers, each from the numbered rules of spec/. A statement on `stepOver p` and
`State.Over E` is made for every parameter set and every error type (R48); `step` is `stepOver Config.params` over numbered errors. -/

open Sys2Proof Sys2Proof.Machine

/-! ### Encodings (30_encoding.md) -/

/-- Sanity: words written out from R80, R82 and R86 decode to the instructions they stand for, REQ bits
31:2 are ignored, and a frame of another opcode or with the data bytes swapped is refused. The place of the register index
above bit 31, so the 40-bit ABORT word, is the model's choice (log 12), and the frame words rest on the default opcodes,
which are PRESUMED (log 9, G2). -/
def Obligations.TableWordsDecode : Prop :=
  decodeTableWord 32 0x00000000 = some .init ∧ decodeTableWord 32 0x00000001 = some .reset ∧
  decodeTableWord 32 0x00000002 = some .read ∧ decodeTableWord 32 0x00000003 = some .reservedOp ∧
  decodeTableWord 32 0xFFFFFFFE = some .read ∧ decodeTableWord 40 0x0100000000 = some .abort ∧
  decodeTableWord 24 0xA80000 = some .trigger ∧ decodeTableWord 24 0xE10800 = some .calibrate ∧
  decodeTableWord 24 0xBA0000 = some .softreset ∧ decodeTableWord 24 0xACFF00 = some .measure ∧
  decodeTableWord 24 0x710000 = none ∧ decodeTableWord 24 0xE10008 = none

/-- R80: bits 1:0 of a REQ write choose the operation, whatever the other bits are. -/
def Obligations.ReqOpFieldSelectsOperation : Prop :=
  ∀ (p : Params) (v : Word32),
    decode p (.hostWrite 0 v) =
      .ok (match v.getLsbD 1, v.getLsbD 0 with
        | false, false => .init
        | false, true => .reset
        | true, false => .read
        | true, true => .reservedOp)

/-- R82, R153: a write of any value to register 1 is ABORT, and without HAS_ABORT it changes nothing. -/
def Obligations.AbortIsAnyWriteToRegisterOne : Prop :=
  ∀ (E : Type) (p : Params) (v : Word32) (s : State.Over E),
    decode p (.hostWrite 1 v) = .ok .abort ∧ abortWith false s = s

/-- R14, R82, R153: a block without HAS_ABORT ignores a write to register 1, in every state: the step takes the turn and the
access and changes nothing else. -/
def Obligations.WithoutAbortTheWriteIsIgnored : Prop :=
  ∀ (E : Type) (p : Params) (s : State.Over E) (ts : List Agent) (v : Word32) (q : List HostAct),
    p.hasAbort = false →
    execOver p .abort s = .next s ∧
    (s.turns = .host :: ts → s.hostQ = .write 1 v :: q →
      stepOver p s = .next { s with turns := ts, hostQ := q })

/-- R62, R85, R86: the bytes of the four frames in wire order, for every choice of the opcode parameters. -/
def Obligations.FrameBytesOnTheWire : Prop :=
  ∀ p : Params,
    encode p .trigger = .wire [p.opcGetRaw, 0x00#8, 0x00#8] ∧
    encode p .calibrate = .wire [p.opcCalibrate, 0x08#8, 0x00#8] ∧
    encode p .softreset = .wire [p.opcReset, 0x00#8, 0x00#8] ∧
    encode p .measure = .wire [p.opcGetCt, 0xFF#8, 0x00#8]

/-- R80, R82, R86, R87: for every allowed parameter set, each instruction's code decodes to it at every value of the ignored bits,
and every code that decodes to an instruction is one of that instruction's own codes: the command space is closed. -/
def Obligations.DecodeAndEncodeAgree : Prop :=
  ∀ p : Params, p.wf = true →
    (∀ (i : Instr) (z : Word32), decode p (encodeWith p z i) = .ok i) ∧
    (∀ (c : Code) (i : Instr), decode p c = .ok i → ∃ z : Word32, encodeWith p z i = c)

/-- R31, R84: the encodings of `state` and `rsp_code`. -/
def Obligations.StateAndResponseEncodings : Prop :=
  fsmCode .uninit = 0x0#4 ∧ fsmCode .initW1 = 0x1#4 ∧ fsmCode .initD1 = 0x2#4 ∧
  fsmCode .initW2 = 0x3#4 ∧ fsmCode .initD2 = 0x4#4 ∧ fsmCode .ready = 0x5#4 ∧
  fsmCode .resetW = 0x6#4 ∧ fsmCode .resetD = 0x7#4 ∧ fsmCode .readWr = 0x8#4 ∧
  rspBits .ok = 0b000#3 ∧ rspBits .transport = 0b001#3 ∧ rspBits .uncalibrated = 0b010#3 ∧
  rspBits .illegal = 0b011#3 ∧ rspBits .aborted = 0b100#3

/-! ### Reset (10_state.md R44, 70_reset_and_hazards.md) -/

/-- R44: the elements whose value after block reset the spec gives. -/
def Obligations.ResetLeavesTheSpecifiedValues : Prop :=
  State.reset.fsm = .uninit ∧ State.reset.resValid = false ∧ State.reset.rspValid = false ∧
  State.reset.rspErr = none ∧ State.reset.outstanding = none ∧ State.reset.needsInit = true

/-- R260: BlockReset, in any state: the outstanding request is gone, the elements have their reset values, nothing is issued.
That what the outside still has to do and the run's fault mark stay is the model's choice (log 1, log 6). -/
def Obligations.BlockResetFromAnyState : Prop :=
  ∀ (s : State) (ts : List Agent), s.turns = .platform :: ts →
    ∃ t, step s = .next t ∧ t.fsm = .uninit ∧ t.resValid = false ∧ t.rspValid = false ∧
      t.rspErr = none ∧ t.outstanding = none ∧ t.needsInit = true ∧
      t.turns = ts ∧ t.hostQ = s.hostQ ∧ t.xportQ = s.xportQ ∧ t.readData = s.readData ∧
      t.faulted = s.faulted ∧
      ∃ es, t.transcript = s.transcript ++ es ∧ ∀ r, WireEntry.issued r ∉ es

/-- R152, R261: a withdrawn request is no longer outstanding, the withdrawal is recorded, and its completion
has no move (the form of the record and of the refusal is the model's choice, log 7, log 11). -/
def Obligations.WithdrawnRequestNeverCompletes : Prop :=
  ∀ (E : Type) (p : Params) (s : State.Over E) (r : Request), s.outstanding = some r →
    (withdraw s).outstanding = none ∧
    (∀ ms, r = .delay ms → (withdraw s).transcript = s.transcript ++ [.withdrawnTimer ms]) ∧
    ((∀ ms, r ≠ .delay ms) →
      ∃ o, (withdraw s).transcript = s.transcript ++ [.withdrawnXport r o]) ∧
    (∀ c, xportDone p c (withdraw s) = .refused (.noMove .xport)) ∧
    timerDone p (withdraw s) = .refused (.noMove .timer)

/-! ### The host's register view (R43) -/

/-- R43: a host read of STAT gives every field at its place and changes nothing of the block. -/
def Obligations.StatShowsEveryField : Prop :=
  ∀ (s : State) (ts : List Agent) (q : List HostAct),
    s.turns = .host :: ts → s.hostQ = .read 2 :: q →
    ∃ w : Word32,
      step s = .next { s with turns := ts, hostQ := q, readData := some (.word w) } ∧
      w.getLsbD 0 = s.rspValid ∧ w.extractLsb' 1 3 = s.rspCode ∧ w.getLsbD 4 = s.resValid ∧
      w.getLsbD 5 = isBusy s.fsm ∧ w.extractLsb' 6 2 = 0#2 ∧ w.extractLsb' 8 4 = fsmCode s.fsm ∧
      w.extractLsb' 12 20 = 0#20

/-- R34, R35, R36, R43: HUM and TEMP give the counts zero-extended while `res_valid = 1`, and a read of either
while `res_valid = 0` is a fault. -/
def Obligations.ResultReadsNeedAValidResult : Prop :=
  ∀ (s : State) (ts : List Agent) (q : List HostAct), s.turns = .host :: ts →
    (s.hostQ = .read 3 :: q → s.resValid = true →
      step s = .next { s with
        turns := ts, hostQ := q, readData := some (.word (s.humRaw.setWidth 32)) }) ∧
    (s.hostQ = .read 4 :: q → s.resValid = true →
      step s = .next { s with
        turns := ts, hostQ := q, readData := some (.word (s.tempRaw.setWidth 32)) }) ∧
    ((s.hostQ = .read 3 :: q ∨ s.hostQ = .read 4 :: q) → s.resValid = false →
      step s = .fault .readWithoutResult)

/-- R39, R43: ERR gives the error held when `rsp_code` is TRANSPORT, and a read of it is a fault when it is not or none is held. -/
def Obligations.ErrorReadNeedsATransportError : Prop :=
  ∀ (s : State) (ts : List Agent) (q : List HostAct),
    s.turns = .host :: ts → s.hostQ = .read 5 :: q →
    (∀ e, s.rspCode = 0b001#3 → s.rspErr = some e →
      step s = .next { s with turns := ts, hostQ := q, readData := some (.err e) }) ∧
    ((s.rspCode ≠ 0b001#3 ∨ s.rspErr = none) → step s = .fault .readWithoutError)

/-- R43: a read of REQ, ABORT or an index above 5 gives 0; a write to a register other than REQ and ABORT is ignored. -/
def Obligations.OtherRegisterAccessesAreInert : Prop :=
  ∀ (s : State) (ts : List Agent) (q : List HostAct), s.turns = .host :: ts →
    (∀ idx, (idx = 0 ∨ idx = 1 ∨ 5 < idx) → s.hostQ = .read idx :: q →
      step s = .next { s with turns := ts, hostQ := q, readData := some (.word 0#32) }) ∧
    (∀ idx v, 1 < idx → s.hostQ = .write idx v :: q →
      step s = .next { s with turns := ts, hostQ := q })

/-- R161: in a waiting state no request is taken: the write stays with the host and nothing else moves. That a turn of the
host is used up, and that `exec` of a request answers the state unchanged there, is the model's reading (log 15, DEDUCED). -/
def Obligations.RequestsAreHeldWhileBusy : Prop :=
  ∀ s : State, isBusy s.fsm = true →
    (∀ (ts : List Agent) (v : Word32) (q : List HostAct),
      s.turns = .host :: ts → s.hostQ = .write 0 v :: q → step s = .next { s with turns := ts }) ∧
    exec .init s = .next s ∧ exec .reset s = .next s ∧ exec .read s = .next s ∧
    exec .reservedOp s = .next s

/-! ### Running an instruction -/

/-- R21, R76, R253: when the host's turn comes and its next access is a write that decodes to `i` (and is not a
request held while busy), the step is `exec i` with that turn and that access taken. -/
def Obligations.StepRunsTheDecodedWrite : Prop :=
  ∀ (s : State) (ts : List Agent) (idx : Nat) (v : Word32) (q : List HostAct) (i : Instr),
    s.turns = .host :: ts → s.hostQ = .write idx v :: q →
    ¬ (idx = 0 ∧ isBusy s.fsm = true) →
    decode Config.params (.hostWrite idx v) = .ok i →
    step s = exec i { s with turns := ts, hostQ := q }

/-- R110, R115: each frame is sent by one step of one host operation: that step is `exec` of the frame at
the state the operation has prepared. -/
def Obligations.OperationsSendTheirFrames : Prop :=
  ∀ s : State,
    ((s.fsm = .uninit ∨ s.fsm = .ready) →
      exec .init s = exec .trigger { s with
        rspValid := false, resValid := false, rspErr := none, needsInit := true, fsm := .initW1 }) ∧
    (s.fsm = .ready →
      exec .reset s = exec .softreset { s with
        rspValid := false, resValid := false, rspErr := none, needsInit := true, fsm := .resetW } ∧
      exec .read s = exec .measure { s with
        rspValid := false, resValid := false, rspErr := none, fsm := .readWr }) ∧
    (∀ (ts : List Agent) (ms : Nat),
      s.turns = .timer :: ts → s.fsm = .initD1 → s.outstanding = some (.delay ms) →
      step s = exec .calibrate { s with
        turns := ts, fsm := .initW2, outstanding := none,
        transcript := s.transcript ++ [.timerDone] })

/-- R111 to R114: each frame, with nothing outstanding, issues its transport request to 0x38 and changes nothing else. That
a frame run on its own leaves the position alone is the model's reading (log 17, DEDUCED). -/
def Obligations.FramesIssueTheirRequests : Prop :=
  ∀ s : State, s.outstanding = none →
    exec .trigger s = .next { s with
      outstanding := some (.write 0x38#7 ⟨Config.params.opcGetRaw, 0x00#8, 0x00#8⟩),
      transcript := s.transcript ++
        [.issued (.write 0x38#7 ⟨Config.params.opcGetRaw, 0x00#8, 0x00#8⟩)] } ∧
    exec .calibrate s = .next { s with
      outstanding := some (.write 0x38#7 ⟨Config.params.opcCalibrate, 0x08#8, 0x00#8⟩),
      transcript := s.transcript ++
        [.issued (.write 0x38#7 ⟨Config.params.opcCalibrate, 0x08#8, 0x00#8⟩)] } ∧
    exec .softreset s = .next { s with
      outstanding := some (.write 0x38#7 ⟨Config.params.opcReset, 0x00#8, 0x00#8⟩),
      transcript := s.transcript ++
        [.issued (.write 0x38#7 ⟨Config.params.opcReset, 0x00#8, 0x00#8⟩)] } ∧
    exec .measure s = .next { s with
      outstanding := some (.writeRead 0x38#7 ⟨Config.params.opcGetCt, 0xFF#8, 0x00#8⟩ 7),
      transcript := s.transcript ++
        [.issued (.writeRead 0x38#7 ⟨Config.params.opcGetCt, 0xFF#8, 0x00#8⟩ 7)] }

/-- The model's choice (log 10, from R40's one request at a time): a frame sent while a request is outstanding stops
with a fault of its own. -/
def Obligations.FramesNeedNoRequestOutstanding : Prop :=
  ∀ s : State, s.outstanding ≠ none →
    exec .trigger s = .fault .requestOutstanding ∧ exec .calibrate s = .fault .requestOutstanding ∧
    exec .softreset s = .fault .requestOutstanding ∧ exec .measure s = .fault .requestOutstanding

/-- R120: INIT from either idle state: Accept, the ghost set, INIT_W1, and the trigger write issued. -/
def Obligations.InitIsAccepted : Prop :=
  ∀ s : State, (s.fsm = .uninit ∨ s.fsm = .ready) → s.outstanding = none →
    exec .init s = .next { s with
      rspValid := false, resValid := false, rspErr := none, needsInit := true, fsm := .initW1,
      outstanding := some (.write 0x38#7 ⟨Config.params.opcGetRaw, 0x00#8, 0x00#8⟩),
      transcript := s.transcript ++
        [.issued (.write 0x38#7 ⟨Config.params.opcGetRaw, 0x00#8, 0x00#8⟩)] }

/-- R130: RESET in READY: Accept, the ghost set, RESET_W, and the reset write issued. -/
def Obligations.ResetIsAccepted : Prop :=
  ∀ s : State, s.fsm = .ready → s.outstanding = none →
    exec .reset s = .next { s with
      rspValid := false, resValid := false, rspErr := none, needsInit := true, fsm := .resetW,
      outstanding := some (.write 0x38#7 ⟨Config.params.opcReset, 0x00#8, 0x00#8⟩),
      transcript := s.transcript ++
        [.issued (.write 0x38#7 ⟨Config.params.opcReset, 0x00#8, 0x00#8⟩)] }

/-- R140, R145: READ in READY, whatever the ghost: Accept, READ_WR, and the write-then-read issued. -/
def Obligations.ReadIsAccepted : Prop :=
  ∀ s : State, s.fsm = .ready → s.outstanding = none →
    exec .read s = .next { s with
      rspValid := false, resValid := false, rspErr := none, fsm := .readWr,
      outstanding := some (.writeRead 0x38#7 ⟨Config.params.opcGetCt, 0xFF#8, 0x00#8⟩ 7),
      transcript := s.transcript ++
        [.issued (.writeRead 0x38#7 ⟨Config.params.opcGetCt, 0xFF#8, 0x00#8⟩ 7)] }

/-- R160: RESET and READ in UNINIT and the reserved op in either idle state: Accept and Respond(ILLEGAL), nothing issued,
the position unchanged, the run marked faulted. -/
def Obligations.IllegalRequestsAreAnswered : Prop :=
  ∀ s : State,
    (s.fsm = .uninit →
      exec .reset s = .next { s with
        rspValid := true, resValid := false, rspErr := none, rspCode := 0b011#3, faulted := true } ∧
      exec .read s = .next { s with
        rspValid := true, resValid := false, rspErr := none, rspCode := 0b011#3, faulted := true }) ∧
    ((s.fsm = .uninit ∨ s.fsm = .ready) →
      exec .reservedOp s = .next { s with
        rspValid := true, resValid := false, rspErr := none, rspCode := 0b011#3, faulted := true })

/-- R150: ABORT in a waiting state withdraws the outstanding request and ends the operation ABORTED: UNINIT after INIT,
READY after RESET and READ. That the machine has HAS_ABORT is the model's choice (log 9). -/
def Obligations.AbortCancelsTheOperation : Prop :=
  ∀ s : State,
    ((s.fsm = .initW1 ∨ s.fsm = .initD1 ∨ s.fsm = .initW2 ∨ s.fsm = .initD2) →
      exec .abort s = .next { withdraw s with
        fsm := .uninit, needsInit := true, rspCode := 0b100#3, rspValid := true }) ∧
    ((s.fsm = .resetW ∨ s.fsm = .resetD ∨ s.fsm = .readWr) →
      exec .abort s = .next { withdraw s with
        fsm := .ready, needsInit := true, rspCode := 0b100#3, rspValid := true })

/-- R151: ABORT in an idle state changes nothing, whether or not the option is present. -/
def Obligations.AbortWhenIdleDoesNothing : Prop :=
  ∀ s : State, (s.fsm = .uninit ∨ s.fsm = .ready) →
    exec .abort s = .next s ∧ abortWith true s = s ∧ abortWith false s = s

/-- The frame of all nine instructions (R111 to R114, R120, R130, R140, R150, R160): none writes the data registers, the queues
of the outside or the last read's value; the reserved op leaves position, request and record. That a frame leaves the position
and the flags alone is the model's reading (log 17, DEDUCED); that only an ABORT advances the draw counter is the model's choice
(log 4), as are the queues and the last read's value themselves (log 1, log 8). -/
def Obligations.InstructionsLeaveTheRestAlone : Prop :=
  ∀ (i : Instr) (s t : State), exec i s = .next t →
    t.rbuf = s.rbuf ∧ t.humRaw = s.humRaw ∧ t.tempRaw = s.tempRaw ∧ t.turns = s.turns ∧
    t.hostQ = s.hostQ ∧ t.xportQ = s.xportQ ∧ t.readData = s.readData ∧
    (i ≠ .abort → t.draws = s.draws) ∧
    ((i = .trigger ∨ i = .calibrate ∨ i = .softreset ∨ i = .measure) →
      t.fsm = s.fsm ∧ t.resValid = s.resValid ∧ t.rspValid = s.rspValid ∧ t.rspCode = s.rspCode ∧
      t.rspErr = s.rspErr ∧ t.needsInit = s.needsInit ∧ t.faulted = s.faulted) ∧
    (i = .init → t.rspCode = s.rspCode ∧ t.faulted = s.faulted) ∧
    ((i = .read ∨ i = .reservedOp) → t.needsInit = s.needsInit) ∧
    (i = .reservedOp →
      t.fsm = s.fsm ∧ t.outstanding = s.outstanding ∧ t.transcript = s.transcript) ∧
    (i = .abort → t.resValid = s.resValid ∧ t.rspErr = s.rspErr ∧ t.faulted = s.faulted)

/-! ### Completions (41_sequencer.md) -/

/-- R121, R125: a write of INIT completes OK: the 300 ms delay that follows it is requested. -/
def Obligations.InitWritesCompleteOk : Prop :=
  ∀ (s : State) (ts : List Agent) (q : List (XportReply XportError)) (a : Addr7) (f : Frame),
    s.turns = .xport :: ts → s.xportQ = .ok :: q → s.outstanding = some (.write a f) →
    (s.fsm = .initW1 →
      step s = .next { s with
        turns := ts, xportQ := q, fsm := .initD1, outstanding := some (.delay 300),
        transcript := s.transcript ++ [.xportDone .ok, .issued (.delay 300)] }) ∧
    (s.fsm = .initW2 →
      step s = .next { s with
        turns := ts, xportQ := q, fsm := .initD2, outstanding := some (.delay 300),
        transcript := s.transcript ++ [.xportDone .ok, .issued (.delay 300)] })

/-- R122, R124: a write of INIT fails: UNINIT, the error recorded unchanged, TRANSPORT, and nothing follows. -/
def Obligations.InitWriteFailureEndsInUninit : Prop :=
  ∀ (s : State) (ts : List Agent) (q : List (XportReply XportError)) (a : Addr7) (f : Frame) (e : XportError),
    s.turns = .xport :: ts → s.xportQ = .err e :: q → s.outstanding = some (.write a f) →
    (s.fsm = .initW1 ∨ s.fsm = .initW2) →
    step s = .next { s with
      turns := ts, xportQ := q, fsm := .uninit, outstanding := none, rspErr := some e,
      rspCode := 0b001#3, rspValid := true, needsInit := true,
      transcript := s.transcript ++ [.xportDone (.err e)] }

/-- R123, R126: the delays of INIT complete: the Calibrate write is issued, then READY and OK. -/
def Obligations.InitDelaysComplete : Prop :=
  ∀ (s : State) (ts : List Agent) (ms : Nat),
    s.turns = .timer :: ts → s.outstanding = some (.delay ms) →
    (s.fsm = .initD1 →
      step s = .next { s with
        turns := ts, fsm := .initW2,
        outstanding := some (.write 0x38#7 ⟨Config.params.opcCalibrate, 0x08#8, 0x00#8⟩),
        transcript := s.transcript ++ [.timerDone,
          .issued (.write 0x38#7 ⟨Config.params.opcCalibrate, 0x08#8, 0x00#8⟩)] }) ∧
    (s.fsm = .initD2 →
      step s = .next { s with
        turns := ts, fsm := .ready, outstanding := none, needsInit := false,
        rspCode := 0b000#3, rspValid := true, transcript := s.transcript ++ [.timerDone] })

/-- R131, R132: the write of RESET fails (READY and TRANSPORT, no delay) or completes OK (the 20 ms delay is requested). -/
def Obligations.ResetWriteCompletes : Prop :=
  ∀ (s : State) (ts : List Agent) (q : List (XportReply XportError)) (a : Addr7) (f : Frame),
    s.turns = .xport :: ts → s.fsm = .resetW → s.outstanding = some (.write a f) →
    (∀ e, s.xportQ = .err e :: q →
      step s = .next { s with
        turns := ts, xportQ := q, fsm := .ready, outstanding := none, rspErr := some e,
        rspCode := 0b001#3, rspValid := true,
        transcript := s.transcript ++ [.xportDone (.err e)] }) ∧
    (s.xportQ = .ok :: q →
      step s = .next { s with
        turns := ts, xportQ := q, fsm := .resetD, outstanding := some (.delay 20),
        transcript := s.transcript ++ [.xportDone .ok, .issued (.delay 20)] })

/-- R133: the delay of RESET completes: READY and OK. -/
def Obligations.ResetDelayCompletes : Prop :=
  ∀ (s : State) (ts : List Agent) (ms : Nat),
    s.turns = .timer :: ts → s.fsm = .resetD → s.outstanding = some (.delay ms) →
    step s = .next { s with
      turns := ts, fsm := .ready, outstanding := none, rspCode := 0b000#3, rspValid := true,
      transcript := s.transcript ++ [.timerDone] }

/-- R141: READ completes with the calibration flag clear: UNCALIBRATED, only `rbuf` written of the data registers. -/
def Obligations.ReadWithoutCalibrationIsRejected : Prop :=
  ∀ (s : State) (ts : List Agent) (q : List (XportReply XportError)) (a : Addr7) (f : Frame) (n : Nat)
    (buf : Response),
    s.turns = .xport :: ts → s.xportQ = .okBuf buf :: q → s.fsm = .readWr →
    s.outstanding = some (.writeRead a f n) →
    (statusDecode Config.params.calMask buf.b0).cal = false →
    step s = .next { s with
      turns := ts, xportQ := q, fsm := .ready, outstanding := none, rbuf := buf,
      rspCode := 0b010#3, rspValid := true,
      transcript := s.transcript ++ [.xportDone (.okBuf buf)] }

/-- R142: READ completes with the calibration flag set: `rbuf`, both counts, `res_valid`, READY and OK in one step. -/
def Obligations.CalibratedReadWritesTheResult : Prop :=
  ∀ (s : State) (ts : List Agent) (q : List (XportReply XportError)) (a : Addr7) (f : Frame) (n : Nat)
    (buf : Response),
    s.turns = .xport :: ts → s.xportQ = .okBuf buf :: q → s.fsm = .readWr →
    s.outstanding = some (.writeRead a f n) →
    (statusDecode Config.params.calMask buf.b0).cal = true →
    step s = .next { s with
      turns := ts, xportQ := q, fsm := .ready, outstanding := none, rbuf := buf,
      humRaw := unpackHum buf, tempRaw := unpackTemp buf, resValid := true,
      rspCode := 0b000#3, rspValid := true,
      transcript := s.transcript ++ [.xportDone (.okBuf buf)] }

/-- R143: READ's transaction fails: READY, the error recorded, TRANSPORT; `rbuf` and the results are not written. -/
def Obligations.ReadTransportFailure : Prop :=
  ∀ (s : State) (ts : List Agent) (q : List (XportReply XportError)) (a : Addr7) (f : Frame) (n : Nat)
    (e : XportError),
    s.turns = .xport :: ts → s.xportQ = .err e :: q → s.fsm = .readWr →
    s.outstanding = some (.writeRead a f n) →
    step s = .next { s with
      turns := ts, xportQ := q, fsm := .ready, outstanding := none, rspErr := some e,
      rspCode := 0b001#3, rspValid := true,
      transcript := s.transcript ++ [.xportDone (.err e)] }

/-- R162, A3: a completion with nothing outstanding, or of the wrong kind, has no move. That such a turn is refused by name
is the model's reading (log 11, DEDUCED). -/
def Obligations.UnexpectedCompletionsHaveNoMove : Prop :=
  ∀ (s : State) (ts : List Agent),
    (∀ c q, s.turns = .xport :: ts → s.xportQ = c :: q →
      (s.outstanding = none ∨ (∃ ms, s.outstanding = some (.delay ms)) ∨
        (∃ a f b, s.outstanding = some (.write a f) ∧ c = .okBuf b) ∨
        (∃ a f n, s.outstanding = some (.writeRead a f n) ∧ c = .ok)) →
      step s = .refused (.noMove .xport)) ∧
    (s.turns = .timer :: ts → (∀ ms, s.outstanding ≠ some (.delay ms)) →
      step s = .refused (.noMove .timer))

/-- R93: when nothing fails, each host operation runs its fixed transcript and ends OK, from every idle state it is legal in:
INIT in five events, RESET in three, READ in two. For every parameter set and error type; `core` is `coreOver` at
`Config.params` and numbered errors. -/
def Obligations.OperationsRunTheirTranscripts : Prop :=
  ∀ (E : Type) (p : Params) (s : State.Over E) (v : Word32) (ts : List Agent) (hq : List HostAct)
    (xq : List (XportReply E)),
    s.outstanding = none → s.hostQ = .write 0 v :: hq →
    ((s.fsm = .uninit ∨ s.fsm = .ready) → v.extractLsb' 0 2 = 0b00#2 →
      s.turns = [.host, .xport, .timer, .xport, .timer] ++ ts → s.xportQ = .ok :: .ok :: xq →
      (coreOver E p).run 5 s = .next { s with
        turns := ts, hostQ := hq, xportQ := xq, fsm := .ready, outstanding := none,
        needsInit := false, resValid := false, rspErr := none, rspCode := 0b000#3, rspValid := true,
        transcript := s.transcript ++
          [.issued (.write 0x38#7 ⟨p.opcGetRaw, 0x00#8, 0x00#8⟩), .xportDone .ok,
           .issued (.delay 300), .timerDone,
           .issued (.write 0x38#7 ⟨p.opcCalibrate, 0x08#8, 0x00#8⟩), .xportDone .ok,
           .issued (.delay 300), .timerDone] }) ∧
    (s.fsm = .ready → v.extractLsb' 0 2 = 0b01#2 →
      s.turns = [.host, .xport, .timer] ++ ts → s.xportQ = .ok :: xq →
      (coreOver E p).run 3 s = .next { s with
        turns := ts, hostQ := hq, xportQ := xq, fsm := .ready, outstanding := none,
        needsInit := true, resValid := false, rspErr := none, rspCode := 0b000#3, rspValid := true,
        transcript := s.transcript ++
          [.issued (.write 0x38#7 ⟨p.opcReset, 0x00#8, 0x00#8⟩), .xportDone .ok,
           .issued (.delay 20), .timerDone] }) ∧
    (∀ buf, s.fsm = .ready → v.extractLsb' 0 2 = 0b10#2 →
      s.turns = [.host, .xport] ++ ts → s.xportQ = .okBuf buf :: xq →
      (statusDecode p.calMask buf.b0).cal = true →
      (coreOver E p).run 2 s = .next { s with
        turns := ts, hostQ := hq, xportQ := xq, fsm := .ready, outstanding := none,
        rbuf := buf, humRaw := unpackHum buf, tempRaw := unpackTemp buf,
        resValid := true, rspErr := none, rspCode := 0b000#3, rspValid := true,
        transcript := s.transcript ++
          [.issued (.writeRead 0x38#7 ⟨p.opcGetCt, 0xFF#8, 0x00#8⟩ 7),
           .xportDone (.okBuf buf)] })

/-- R40, R250, R251: from a coherent waiting state every completion of the outstanding request's kind has a move, so only
the transport or the timer can keep the block waiting. -/
def Obligations.TheOutstandingRequestCanComplete : Prop :=
  ∀ (E : Type) (p : Params) (s : State.Over E), oneRequest p s → isBusy s.fsm = true →
    ∃ r, s.outstanding = some r ∧
      (∀ c, replyFits r c = true → ∃ t, xportDone p c s = .next t) ∧
      (∀ ms, r = .delay ms → ∃ t, timerDone p s = .next t)

/-- R47: every completion moves the operation nearer its end: no loop and no retry. -/
def Obligations.CompletionsOnlyAdvance : Prop :=
  ∀ (E : Type) (p : Params) (s t : State.Over E),
    (∀ c, xportDone p c s = .next t → remaining t.fsm < remaining s.fsm) ∧
    (timerDone p s = .next t → remaining t.fsm < remaining s.fsm)

/-! ### Status decoder and field unpacker -/

/-- R170, R171: the fields of the status byte, with the default CAL_MASK. -/
def Obligations.StatusByteFields : Prop :=
  ∀ s : Byte,
    statusDecode 0x08#8 s = {
      busy := s.getLsbD 7, mode := s.extractLsb' 5 2, crc := s.getLsbD 4, cal := s.getLsbD 3,
      fifoEn := s.getLsbD 2, fifoFull := s.getLsbD 1, fifoEmpty := s.getLsbD 0 }

/-- R171, R176: for every allowed CAL_MASK the calibration flag is the one bit the mask has set, and the other
outputs do not move. -/
def Obligations.CalMaskPicksOneBit : Prop :=
  ∀ (p : Params) (s : Byte), p.wf = true →
    ∃ k, k < 8 ∧ p.calMask = BitVec.ofNat 8 (2 ^ k) ∧
      (statusDecode p.calMask s).cal = s.getLsbD k ∧
      { statusDecode p.calMask s with cal := s.getLsbD 3 } = statusDecode 0x08#8 s

/-- R172, R175, R177: what a READ completion responds depends on the calibration flag of byte 0 alone. -/
def Obligations.VerdictRestsOnTheCalibrationFlag : Prop :=
  ∀ (E : Type) (mask : Byte) (b b' : Response) (s s' : State.Over E),
    (statusDecode mask b.b0).cal = (statusDecode mask b'.b0).cal →
    (readDone mask b s).rspCode = (readDone mask b' s').rspCode ∧
    (readDone mask b s).fsm = (readDone mask b' s').fsm ∧
    ((readDone mask b s).rspCode = 0b000#3 ↔ (statusDecode mask b.b0).cal = true)

/-- R191, R192, R194, R195: the shift and OR formulas are the concatenations `{b1, b2, b3[7:4]}` and `{b3[3:0], b4, b5}`, the ORs are
sums, and bits 31:20 are 0. -/
def Obligations.UnpackedFieldsAreConcatenations : Prop :=
  ∀ b : Response,
    (unpackHum b).extractLsb' 12 8 = b.b1 ∧ (unpackHum b).extractLsb' 4 8 = b.b2 ∧
    (unpackHum b).extractLsb' 0 4 = b.b3.extractLsb' 4 4 ∧
    (unpackTemp b).extractLsb' 16 4 = b.b3.extractLsb' 0 4 ∧
    (unpackTemp b).extractLsb' 8 8 = b.b4 ∧ (unpackTemp b).extractLsb' 0 8 = b.b5 ∧
    (humWord b).extractLsb' 20 12 = 0#12 ∧ (tempWord b).extractLsb' 20 12 = 0#12 ∧
    (humWord b).toNat = (unpackHum b).toNat ∧ (tempWord b).toNat = (unpackTemp b).toNat ∧
    (unpackHum b).toNat = b.b1.toNat * 2 ^ 12 + b.b2.toNat * 2 ^ 4 + b.b3.toNat / 2 ^ 4 ∧
    (unpackTemp b).toNat = b.b3.toNat % 2 ^ 4 * 2 ^ 16 + b.b4.toNat * 2 ^ 8 + b.b5.toNat

/-- R196: unpacking and packing are inverse, so every pair of counts is reached by one choice of bytes 1 to 5. -/
def Obligations.UnpackAndPackAreInverse : Prop :=
  (∀ (st crc : Byte) (h t : RawCount),
    unpackHum (packResponse st h t crc) = h ∧ unpackTemp (packResponse st h t crc) = t) ∧
  (∀ b : Response, packResponse b.b0 (unpackHum b) (unpackTemp b) b.b6 = b)

/-! ### Value conversions, host side (44_value_conversion.md) -/

/-- R210, R211, R218: a value built from a raw count gives it back; a number of 2^20 or more is refused. -/
def Obligations.RawCountsRoundTrip : Prop :=
  ∀ n : Nat,
    (n < 2 ^ 20 →
      (∃ h, humidityOf n = some h ∧ (humidityRaw h).toNat = n) ∧
      (∃ t, temperatureOf n = some t ∧ (temperatureRaw t).toNat = n)) ∧
    (2 ^ 20 ≤ n → humidityOf n = none ∧ temperatureOf n = none)

/-- R214: the humidity conversion is the exact real formula for every r up to 671088, and not at 671089. -/
def Obligations.PercentIsExactUpToTheBound : Prop :=
  (∀ r : RawCount, r.toNat ≤ 671088 →
    exactValue (humidityPercent r) = 100 * (r.toNat : Rat) / 1048576) ∧
  exactValue (humidityPercent 671089#20) ≠ 100 * (671089 : Rat) / 1048576

/-- R215: both conversions are non-decreasing in the raw count. -/
def Obligations.ConversionsAreMonotone : Prop :=
  ∀ r r' : RawCount, r.toNat ≤ r'.toNat →
    exactValue (humidityPercent r) ≤ exactValue (humidityPercent r') ∧
    exactValue (celsiusDegrees r) ≤ exactValue (celsiusDegrees r')

/-- R216: the conversions' ranges, with both ends attained at r = 0 and r = 0xFFFFF: the greatest values are
104857504/2^20 (99.99990844726562) and 157286208/2^20 (149.99981689453125). -/
def Obligations.ConversionRanges : Prop :=
  (∀ r : RawCount,
    0 ≤ exactValue (humidityPercent r) ∧
    exactValue (humidityPercent r) ≤ (104857504 : Rat) / 1048576 ∧
    -50 ≤ exactValue (celsiusDegrees r) ∧
    exactValue (celsiusDegrees r) ≤ (157286208 : Rat) / 1048576) ∧
  exactValue (humidityPercent 0#20) = 0 ∧
  exactValue (humidityPercent 0xFFFFF#20) = (104857504 : Rat) / 1048576 ∧
  exactValue (celsiusDegrees 0#20) = -50 ∧
  exactValue (celsiusDegrees 0xFFFFF#20) = (157286208 : Rat) / 1048576

/-! ### Host program text -/

/-- R92: a sanity program: one operation a line, `;` starts a comment, and each line is its register write. That blanks are
skipped, that a line of comment alone is no access, that ABORT writes 0 and that a bad line makes the whole program none are the
model's choice (log 16). -/
def Obligations.HostLinesAreRegisterWrites : Prop :=
  assemble Config.params
    ["INIT".toList, "  RESET ; comment".toList, "; only a comment".toList, "READ".toList,
      "ABORT".toList] =
    some [.write 0 0x00000000#32, .write 0 0x00000001#32, .write 0 0x00000002#32,
      .write 1 0x00000000#32] ∧
  assemble Config.params ["INIT".toList, "TRIGGER".toList] = none

/-! ### Whole-machine rules -/

/-- R36: only a READ completion that passes the calibration check sets `res_valid`. -/
def Obligations.OnlyACalibratedReadShowsAResult : Prop :=
  ∀ (E : Type) (p : Params) (s t : State.Over E), stepOver p s = .next t → s.resValid = false → t.resValid = true →
    s.fsm = .readWr ∧ ∃ ts b q, s.turns = .xport :: ts ∧ s.xportQ = .okBuf b :: q ∧
      (statusDecode p.calMask b.b0).cal = true ∧ t.rbuf = b ∧
      t.humRaw = unpackHum b ∧ t.tempRaw = unpackTemp b

/-- R33, R34, R35: besides a block reset only a READ completion writes the data registers, and the counts only when the
calibration check passes. -/
def Obligations.DataRegistersChangeOnlyInRead : Prop :=
  ∀ (E : Type) (p : Params) (s t : State.Over E), stepOver p s = .next t → (∀ ts, s.turns ≠ .platform :: ts) →
    (t.rbuf ≠ s.rbuf → s.fsm = .readWr ∧ ∃ b q, s.xportQ = .okBuf b :: q ∧ t.rbuf = b) ∧
    ((t.humRaw ≠ s.humRaw ∨ t.tempRaw ≠ s.tempRaw) →
      s.fsm = .readWr ∧ t.resValid = true ∧ t.rspCode = 0b000#3)

/-- R45, R273: only an INIT that finishes OK makes the ghost false. -/
def Obligations.OnlyAFinishedInitGivesTrust : Prop :=
  ∀ (E : Type) (p : Params) (s t : State.Over E), stepOver p s = .next t → s.needsInit = true → t.needsInit = false →
    s.fsm = .initD2 ∧ (∃ ts, s.turns = .timer :: ts) ∧ t.fsm = .ready ∧ t.rspValid = true ∧
      t.rspCode = 0b000#3

/-- R37: while idle, a response persists through every event but a host request and a block reset. -/
def Obligations.ResponsesPersistUntilARequest : Prop :=
  ∀ (E : Type) (p : Params) (s t : State.Over E), stepOver p s = .next t → isBusy s.fsm = false → s.rspValid = true →
    (∀ ts, s.turns ≠ .platform :: ts) →
    (∀ ts v q, ¬ (s.turns = .host :: ts ∧ s.hostQ = .write 0 v :: q)) →
    t.rspValid = true ∧ t.rspCode = s.rspCode ∧ t.rspErr = s.rspErr ∧ t.resValid = s.resValid ∧
      t.fsm = s.fsm

/-- R40, R36, R37, R39, R84, R199, R45: the block's invariant holds at reset. -/
def Obligations.ResetMeetsTheBlockInvariant : Prop :=
  BlockInv Config.params State.reset ∧
    ∀ (E : Type) (p : Params), BlockInv p (State.resetOf E)

/-- R40, R36, R37, R39, R84, R199, R45: every step keeps the block's invariant. -/
def Obligations.StepKeepsTheBlockInvariant : Prop :=
  (∀ s t : State, BlockInv Config.params s → step s = .next t → BlockInv Config.params t) ∧
  (∀ (E : Type) (p : Params) (s t : State.Over E), BlockInv p s → stepOver p s = .next t → BlockInv p t)

/-- R40, R61, R66, R69, R87: the wire record's invariant holds at reset. -/
def Obligations.ResetMeetsTheWireInvariant : Prop :=
  WireInv Config.params State.reset ∧
    ∀ (E : Type) (p : Params), WireInv p (State.resetOf E)

/-- R40, R61, R66, R69, R87: every step keeps the wire record's invariant: only the four frames to 0x38 and the two delays
are ever issued, one at a time. -/
def Obligations.StepKeepsTheWireInvariant : Prop :=
  (∀ s t : State, WireInv Config.params s → step s = .next t → WireInv Config.params t) ∧
  (∀ (E : Type) (p : Params) (s t : State.Over E), WireInv p s → stepOver p s = .next t → WireInv p t)

/-- R12, R39: replacing the transport errors by values of any other type commutes with the step: the block never inspects,
transforms or fabricates one, whatever type they have. -/
def Obligations.StepNeverInspectsErrors : Prop :=
  ∀ (E E' : Type) (f : E → E') (p : Params) (s : State.Over E),
    stepOver p (renameErrors f s) = mapNext (renameErrors f) (stepOver p s)

/-- R32: the course of an operation (requests, delays, positions, response) does not depend on the readings, the earlier
responses, the ghost or the records: two states alike but for these take the same course, host reads apart. -/
def Obligations.StepKeepsNoHistory : Prop :=
  ∀ (E : Type) (p : Params) (s t : State.Over E), sameCourse s t → nextIsHostRead s = false →
    sameOutcome s t (stepOver p s) (stepOver p t)

/-- R45: the ghost is never read, and neither are the model's own fault mark (log 6) and last read's value (log 8): setting them
changes nothing else of a step. R45 speaks of the ghost alone; the clauses on the other two are the model's choice. -/
def Obligations.ModelOnlyFieldsAreNeverRead : Prop :=
  ∀ (E : Type) (p : Params) (s : State.Over E) (g m : Bool) (d : Option (ReadValue E)),
    ∃ g' m' d', stepOver p (withModelOnly g m d s) = mapNext (withModelOnly g' m' d') (stepOver p s)
end

