-- ==== Sys2Proof/Laws/Decode.lean ====
section
/-! SUPPORT. The bit lemmas of the encodings, and the round trip of each instruction's code. -/

namespace Sys2Proof

@[simp] theorem opField_reqValue (z : Word32) (o : BitVec 2) : opField (reqValue z o) = o := by
  apply BitVec.eq_of_getLsbD_eq
  intro i hi
  have : i = 0 ∨ i = 1 := by omega
  rcases this with rfl | rfl <;> simp [opField, reqValue]

theorem reqValue_opField (v : Word32) : reqValue v (opField v) = v := by
  have hm : ∀ i : Fin 32, (0xFFFFFFFC#32).getLsbD i = decide (2 ≤ i.val) := by decide
  apply BitVec.eq_of_getLsbD_eq
  intro i hi
  have hm' := hm ⟨i, hi⟩
  simp only [] at hm'
  simp only [opField, reqValue, BitVec.getLsbD_or, BitVec.getLsbD_and, hm', BitVec.getLsbD_setWidth,
    BitVec.getLsbD_extractLsb', hi, decide_true, Bool.true_and, Nat.zero_add]
  by_cases h : 2 ≤ i
  · simp [h, show ¬ i < 2 by omega]
  · simp [h, show i < 2 by omega]

@[simp] theorem mkFrame_data (opc : Byte) (w : BitVec 16) : (mkFrame opc w).data = w := by
  apply BitVec.eq_of_getLsbD_eq
  intro i hi
  simp only [mkFrame, Frame.data, BitVec.getLsbD_or, BitVec.getLsbD_shiftLeft, BitVec.getLsbD_setWidth,
    BitVec.getLsbD_extractLsb', hi, decide_true, Bool.true_and, Nat.zero_add]
  by_cases h : i < 8
  · simp [h]
  · have h8 : 8 + (i - 8) = i := by omega
    simp [h, h8, show i - 8 < 8 by omega, show i - 8 < 16 by omega]

theorem mkFrame_of_data (f : Frame) : mkFrame f.opc f.data = f := by
  have h1 : f.data.extractLsb' 8 8 = f.dhi := by
    apply BitVec.eq_of_getLsbD_eq
    intro i hi
    simp [Frame.data, hi, show 8 + i < 16 by omega]
  have h2 : f.data.extractLsb' 0 8 = f.dlo := by
    apply BitVec.eq_of_getLsbD_eq
    intro i hi
    simp [Frame.data, hi, show i < 16 by omega]
  simp [mkFrame, h1, h2]

/-- The decoder reads a frame from the bytes of one. -/
theorem decode_frame_bytes (p : Params) (f : Frame) : decode p (.wire f.bytes) = decodeFrame p f := rfl

/-- The four opcodes of an allowed parameter set differ (R10). -/
theorem opcodes_differ {p : Params} (h : p.wf = true) :
    p.opcCalibrate ≠ p.opcGetRaw ∧ p.opcReset ≠ p.opcGetRaw ∧ p.opcReset ≠ p.opcCalibrate ∧
      p.opcGetCt ≠ p.opcGetRaw ∧ p.opcGetCt ≠ p.opcCalibrate ∧ p.opcGetCt ≠ p.opcReset := by
  have hd : p.opcodesDistinct = true := by
    simp only [Params.wf, Bool.and_eq_true] at h
    exact h.1
  simp only [Params.opcodesDistinct, List.nodup_cons, List.mem_cons, List.not_mem_nil, or_false,
    not_or, List.nodup_nil, not_false_eq_true, and_true, decide_eq_true_eq] at hd
  obtain ⟨⟨h1, h2, h3⟩, ⟨h4, h5⟩, h6⟩ := hd
  exact ⟨h1, Ne.symm h5, Ne.symm h3, Ne.symm h4, Ne.symm h2, h6⟩

end Sys2Proof
end

