-- ==== Sys2Proof/Laws/Flags.lean ====
section
/-! SUPPORT. The bits of STAT, one by one. -/

namespace Sys2Proof.Machine

open Sys2Proof

variable {E : Type}

/-- Every bit of STAT (R43): which field it shows. -/
theorem statWord_getLsbD (s : State.Over E) {i : Nat} (hi : i < 32) :
    (statWord s).getLsbD i =
      ((decide (8 ≤ i) && (fsmCode s.fsm).getLsbD (i - 8)) || (decide (i = 5) && isBusy s.fsm) ||
        (decide (i = 4) && s.resValid) || (decide (1 ≤ i) && s.rspCode.getLsbD (i - 1)) ||
        (decide (i = 0) && s.rspValid)) := by
  have hlt : ∀ n, (!decide (i < n)) = decide (n ≤ i) := by
    intro n; rw [Bool.eq_iff_iff]; simp
  have hsub : ∀ n, decide (i - n < 32) = true := by
    intro n; rw [decide_eq_true_eq]; omega
  have hone : ∀ (n : Nat) (b : Bool),
      (decide (n ≤ i) && (decide (i - n = 0) && b)) = (decide (i = n) && b) := by
    intro n b
    rw [← Bool.and_assoc]
    congr 1
    rw [Bool.eq_iff_iff]
    simp only [Bool.and_eq_true, decide_eq_true_eq]
    omega
  simp only [statWord, BitVec.getLsbD_or, BitVec.getLsbD_shiftLeft, BitVec.getLsbD_setWidth,
    BitVec.getLsbD_ofBool, hi, decide_true, Bool.true_and, hlt, hsub, hone]

end Sys2Proof.Machine
end

