-- ==== Sys2Proof/Laws/State.lean ====
section
/-! SUPPORT. What each field is after each named update of the state, one lemma per field and update. -/

namespace Sys2Proof.Machine

open Sys2Proof

variable {E : Type}

/-! ### `record` -/
@[simp] theorem record_fsm (e : WireEntry E) (s : State.Over E) :
    (record e s).fsm = s.fsm := rfl
@[simp] theorem record_rbuf (e : WireEntry E) (s : State.Over E) :
    (record e s).rbuf = s.rbuf := rfl
@[simp] theorem record_humRaw (e : WireEntry E) (s : State.Over E) :
    (record e s).humRaw = s.humRaw := rfl
@[simp] theorem record_tempRaw (e : WireEntry E) (s : State.Over E) :
    (record e s).tempRaw = s.tempRaw := rfl
@[simp] theorem record_resValid (e : WireEntry E) (s : State.Over E) :
    (record e s).resValid = s.resValid := rfl
@[simp] theorem record_rspValid (e : WireEntry E) (s : State.Over E) :
    (record e s).rspValid = s.rspValid := rfl
@[simp] theorem record_rspCode (e : WireEntry E) (s : State.Over E) :
    (record e s).rspCode = s.rspCode := rfl
@[simp] theorem record_rspErr (e : WireEntry E) (s : State.Over E) :
    (record e s).rspErr = s.rspErr := rfl
@[simp] theorem record_outstanding (e : WireEntry E) (s : State.Over E) :
    (record e s).outstanding = s.outstanding := rfl
@[simp] theorem record_needsInit (e : WireEntry E) (s : State.Over E) :
    (record e s).needsInit = s.needsInit := rfl
@[simp] theorem record_faulted (e : WireEntry E) (s : State.Over E) :
    (record e s).faulted = s.faulted := rfl
@[simp] theorem record_transcript (e : WireEntry E) (s : State.Over E) :
    (record e s).transcript = s.transcript ++ [e] := rfl
@[simp] theorem record_turns (e : WireEntry E) (s : State.Over E) :
    (record e s).turns = s.turns := rfl
@[simp] theorem record_hostQ (e : WireEntry E) (s : State.Over E) :
    (record e s).hostQ = s.hostQ := rfl
@[simp] theorem record_xportQ (e : WireEntry E) (s : State.Over E) :
    (record e s).xportQ = s.xportQ := rfl
@[simp] theorem record_readData (e : WireEntry E) (s : State.Over E) :
    (record e s).readData = s.readData := rfl
@[simp] theorem record_draws (e : WireEntry E) (s : State.Over E) :
    (record e s).draws = s.draws := rfl

/-! ### `completed` -/
@[simp] theorem completed_fsm (e : WireEntry E) (s : State.Over E) :
    (completed e s).fsm = s.fsm := rfl
@[simp] theorem completed_rbuf (e : WireEntry E) (s : State.Over E) :
    (completed e s).rbuf = s.rbuf := rfl
@[simp] theorem completed_humRaw (e : WireEntry E) (s : State.Over E) :
    (completed e s).humRaw = s.humRaw := rfl
@[simp] theorem completed_tempRaw (e : WireEntry E) (s : State.Over E) :
    (completed e s).tempRaw = s.tempRaw := rfl
@[simp] theorem completed_resValid (e : WireEntry E) (s : State.Over E) :
    (completed e s).resValid = s.resValid := rfl
@[simp] theorem completed_rspValid (e : WireEntry E) (s : State.Over E) :
    (completed e s).rspValid = s.rspValid := rfl
@[simp] theorem completed_rspCode (e : WireEntry E) (s : State.Over E) :
    (completed e s).rspCode = s.rspCode := rfl
@[simp] theorem completed_rspErr (e : WireEntry E) (s : State.Over E) :
    (completed e s).rspErr = s.rspErr := rfl
@[simp] theorem completed_outstanding (e : WireEntry E) (s : State.Over E) :
    (completed e s).outstanding = none := rfl
@[simp] theorem completed_needsInit (e : WireEntry E) (s : State.Over E) :
    (completed e s).needsInit = s.needsInit := rfl
@[simp] theorem completed_faulted (e : WireEntry E) (s : State.Over E) :
    (completed e s).faulted = s.faulted := rfl
@[simp] theorem completed_transcript (e : WireEntry E) (s : State.Over E) :
    (completed e s).transcript = s.transcript ++ [e] := rfl
@[simp] theorem completed_turns (e : WireEntry E) (s : State.Over E) :
    (completed e s).turns = s.turns := rfl
@[simp] theorem completed_hostQ (e : WireEntry E) (s : State.Over E) :
    (completed e s).hostQ = s.hostQ := rfl
@[simp] theorem completed_xportQ (e : WireEntry E) (s : State.Over E) :
    (completed e s).xportQ = s.xportQ := rfl
@[simp] theorem completed_readData (e : WireEntry E) (s : State.Over E) :
    (completed e s).readData = s.readData := rfl
@[simp] theorem completed_draws (e : WireEntry E) (s : State.Over E) :
    (completed e s).draws = s.draws := rfl

/-! ### `opened` -/
@[simp] theorem opened_fsm (r : Request) (s : State.Over E) :
    (opened r s).fsm = s.fsm := rfl
@[simp] theorem opened_rbuf (r : Request) (s : State.Over E) :
    (opened r s).rbuf = s.rbuf := rfl
@[simp] theorem opened_humRaw (r : Request) (s : State.Over E) :
    (opened r s).humRaw = s.humRaw := rfl
@[simp] theorem opened_tempRaw (r : Request) (s : State.Over E) :
    (opened r s).tempRaw = s.tempRaw := rfl
@[simp] theorem opened_resValid (r : Request) (s : State.Over E) :
    (opened r s).resValid = s.resValid := rfl
@[simp] theorem opened_rspValid (r : Request) (s : State.Over E) :
    (opened r s).rspValid = s.rspValid := rfl
@[simp] theorem opened_rspCode (r : Request) (s : State.Over E) :
    (opened r s).rspCode = s.rspCode := rfl
@[simp] theorem opened_rspErr (r : Request) (s : State.Over E) :
    (opened r s).rspErr = s.rspErr := rfl
@[simp] theorem opened_outstanding (r : Request) (s : State.Over E) :
    (opened r s).outstanding = some r := rfl
@[simp] theorem opened_needsInit (r : Request) (s : State.Over E) :
    (opened r s).needsInit = s.needsInit := rfl
@[simp] theorem opened_faulted (r : Request) (s : State.Over E) :
    (opened r s).faulted = s.faulted := rfl
@[simp] theorem opened_transcript (r : Request) (s : State.Over E) :
    (opened r s).transcript = s.transcript ++ [.issued r] := rfl
@[simp] theorem opened_turns (r : Request) (s : State.Over E) :
    (opened r s).turns = s.turns := rfl
@[simp] theorem opened_hostQ (r : Request) (s : State.Over E) :
    (opened r s).hostQ = s.hostQ := rfl
@[simp] theorem opened_xportQ (r : Request) (s : State.Over E) :
    (opened r s).xportQ = s.xportQ := rfl
@[simp] theorem opened_readData (r : Request) (s : State.Over E) :
    (opened r s).readData = s.readData := rfl
@[simp] theorem opened_draws (r : Request) (s : State.Over E) :
    (opened r s).draws = s.draws := rfl

/-! ### `accept` -/
@[simp] theorem accept_fsm (s : State.Over E) :
    (accept s).fsm = s.fsm := rfl
@[simp] theorem accept_rbuf (s : State.Over E) :
    (accept s).rbuf = s.rbuf := rfl
@[simp] theorem accept_humRaw (s : State.Over E) :
    (accept s).humRaw = s.humRaw := rfl
@[simp] theorem accept_tempRaw (s : State.Over E) :
    (accept s).tempRaw = s.tempRaw := rfl
@[simp] theorem accept_resValid (s : State.Over E) :
    (accept s).resValid = false := rfl
@[simp] theorem accept_rspValid (s : State.Over E) :
    (accept s).rspValid = false := rfl
@[simp] theorem accept_rspCode (s : State.Over E) :
    (accept s).rspCode = s.rspCode := rfl
@[simp] theorem accept_rspErr (s : State.Over E) :
    (accept s).rspErr = none := rfl
@[simp] theorem accept_outstanding (s : State.Over E) :
    (accept s).outstanding = s.outstanding := rfl
@[simp] theorem accept_needsInit (s : State.Over E) :
    (accept s).needsInit = s.needsInit := rfl
@[simp] theorem accept_faulted (s : State.Over E) :
    (accept s).faulted = s.faulted := rfl
@[simp] theorem accept_transcript (s : State.Over E) :
    (accept s).transcript = s.transcript := rfl
@[simp] theorem accept_turns (s : State.Over E) :
    (accept s).turns = s.turns := rfl
@[simp] theorem accept_hostQ (s : State.Over E) :
    (accept s).hostQ = s.hostQ := rfl
@[simp] theorem accept_xportQ (s : State.Over E) :
    (accept s).xportQ = s.xportQ := rfl
@[simp] theorem accept_readData (s : State.Over E) :
    (accept s).readData = s.readData := rfl
@[simp] theorem accept_draws (s : State.Over E) :
    (accept s).draws = s.draws := rfl

/-! ### `respond` -/
@[simp] theorem respond_fsm (c : RspCode) (s : State.Over E) :
    (respond c s).fsm = s.fsm := rfl
@[simp] theorem respond_rbuf (c : RspCode) (s : State.Over E) :
    (respond c s).rbuf = s.rbuf := rfl
@[simp] theorem respond_humRaw (c : RspCode) (s : State.Over E) :
    (respond c s).humRaw = s.humRaw := rfl
@[simp] theorem respond_tempRaw (c : RspCode) (s : State.Over E) :
    (respond c s).tempRaw = s.tempRaw := rfl
@[simp] theorem respond_resValid (c : RspCode) (s : State.Over E) :
    (respond c s).resValid = s.resValid := rfl
@[simp] theorem respond_rspValid (c : RspCode) (s : State.Over E) :
    (respond c s).rspValid = true := rfl
@[simp] theorem respond_rspCode (c : RspCode) (s : State.Over E) :
    (respond c s).rspCode = rspBits c := rfl
@[simp] theorem respond_rspErr (c : RspCode) (s : State.Over E) :
    (respond c s).rspErr = s.rspErr := rfl
@[simp] theorem respond_outstanding (c : RspCode) (s : State.Over E) :
    (respond c s).outstanding = s.outstanding := rfl
@[simp] theorem respond_needsInit (c : RspCode) (s : State.Over E) :
    (respond c s).needsInit = s.needsInit := rfl
@[simp] theorem respond_faulted (c : RspCode) (s : State.Over E) :
    (respond c s).faulted = s.faulted := rfl
@[simp] theorem respond_transcript (c : RspCode) (s : State.Over E) :
    (respond c s).transcript = s.transcript := rfl
@[simp] theorem respond_turns (c : RspCode) (s : State.Over E) :
    (respond c s).turns = s.turns := rfl
@[simp] theorem respond_hostQ (c : RspCode) (s : State.Over E) :
    (respond c s).hostQ = s.hostQ := rfl
@[simp] theorem respond_xportQ (c : RspCode) (s : State.Over E) :
    (respond c s).xportQ = s.xportQ := rfl
@[simp] theorem respond_readData (c : RspCode) (s : State.Over E) :
    (respond c s).readData = s.readData := rfl
@[simp] theorem respond_draws (c : RspCode) (s : State.Over E) :
    (respond c s).draws = s.draws := rfl

/-! ### `errorEntry` -/
@[simp] theorem errorEntry_fsm (c : RspCode) (dest : Fsm) (s : State.Over E) :
    (errorEntry c dest s).fsm = dest := rfl
@[simp] theorem errorEntry_rbuf (c : RspCode) (dest : Fsm) (s : State.Over E) :
    (errorEntry c dest s).rbuf = s.rbuf := rfl
@[simp] theorem errorEntry_humRaw (c : RspCode) (dest : Fsm) (s : State.Over E) :
    (errorEntry c dest s).humRaw = s.humRaw := rfl
@[simp] theorem errorEntry_tempRaw (c : RspCode) (dest : Fsm) (s : State.Over E) :
    (errorEntry c dest s).tempRaw = s.tempRaw := rfl
@[simp] theorem errorEntry_resValid (c : RspCode) (dest : Fsm) (s : State.Over E) :
    (errorEntry c dest s).resValid = s.resValid := rfl
@[simp] theorem errorEntry_rspValid (c : RspCode) (dest : Fsm) (s : State.Over E) :
    (errorEntry c dest s).rspValid = true := rfl
@[simp] theorem errorEntry_rspCode (c : RspCode) (dest : Fsm) (s : State.Over E) :
    (errorEntry c dest s).rspCode = rspBits c := rfl
@[simp] theorem errorEntry_rspErr (c : RspCode) (dest : Fsm) (s : State.Over E) :
    (errorEntry c dest s).rspErr = s.rspErr := rfl
@[simp] theorem errorEntry_outstanding (c : RspCode) (dest : Fsm) (s : State.Over E) :
    (errorEntry c dest s).outstanding = s.outstanding := rfl
@[simp] theorem errorEntry_needsInit (c : RspCode) (dest : Fsm) (s : State.Over E) :
    (errorEntry c dest s).needsInit = s.needsInit := rfl
@[simp] theorem errorEntry_faulted (c : RspCode) (dest : Fsm) (s : State.Over E) :
    (errorEntry c dest s).faulted = s.faulted := rfl
@[simp] theorem errorEntry_transcript (c : RspCode) (dest : Fsm) (s : State.Over E) :
    (errorEntry c dest s).transcript = s.transcript := rfl
@[simp] theorem errorEntry_turns (c : RspCode) (dest : Fsm) (s : State.Over E) :
    (errorEntry c dest s).turns = s.turns := rfl
@[simp] theorem errorEntry_hostQ (c : RspCode) (dest : Fsm) (s : State.Over E) :
    (errorEntry c dest s).hostQ = s.hostQ := rfl
@[simp] theorem errorEntry_xportQ (c : RspCode) (dest : Fsm) (s : State.Over E) :
    (errorEntry c dest s).xportQ = s.xportQ := rfl
@[simp] theorem errorEntry_readData (c : RspCode) (dest : Fsm) (s : State.Over E) :
    (errorEntry c dest s).readData = s.readData := rfl
@[simp] theorem errorEntry_draws (c : RspCode) (dest : Fsm) (s : State.Over E) :
    (errorEntry c dest s).draws = s.draws := rfl

/-! ### `transportError` -/
@[simp] theorem transportError_fsm (e : E) (dest : Fsm) (s : State.Over E) :
    (transportError e dest s).fsm = dest := rfl
@[simp] theorem transportError_rbuf (e : E) (dest : Fsm) (s : State.Over E) :
    (transportError e dest s).rbuf = s.rbuf := rfl
@[simp] theorem transportError_humRaw (e : E) (dest : Fsm) (s : State.Over E) :
    (transportError e dest s).humRaw = s.humRaw := rfl
@[simp] theorem transportError_tempRaw (e : E) (dest : Fsm) (s : State.Over E) :
    (transportError e dest s).tempRaw = s.tempRaw := rfl
@[simp] theorem transportError_resValid (e : E) (dest : Fsm) (s : State.Over E) :
    (transportError e dest s).resValid = s.resValid := rfl
@[simp] theorem transportError_rspValid (e : E) (dest : Fsm) (s : State.Over E) :
    (transportError e dest s).rspValid = true := rfl
@[simp] theorem transportError_rspCode (e : E) (dest : Fsm) (s : State.Over E) :
    (transportError e dest s).rspCode = rspBits .transport := rfl
@[simp] theorem transportError_rspErr (e : E) (dest : Fsm) (s : State.Over E) :
    (transportError e dest s).rspErr = some e := rfl
@[simp] theorem transportError_outstanding (e : E) (dest : Fsm) (s : State.Over E) :
    (transportError e dest s).outstanding = s.outstanding := rfl
@[simp] theorem transportError_needsInit (e : E) (dest : Fsm) (s : State.Over E) :
    (transportError e dest s).needsInit = s.needsInit := rfl
@[simp] theorem transportError_faulted (e : E) (dest : Fsm) (s : State.Over E) :
    (transportError e dest s).faulted = s.faulted := rfl
@[simp] theorem transportError_transcript (e : E) (dest : Fsm) (s : State.Over E) :
    (transportError e dest s).transcript = s.transcript := rfl
@[simp] theorem transportError_turns (e : E) (dest : Fsm) (s : State.Over E) :
    (transportError e dest s).turns = s.turns := rfl
@[simp] theorem transportError_hostQ (e : E) (dest : Fsm) (s : State.Over E) :
    (transportError e dest s).hostQ = s.hostQ := rfl
@[simp] theorem transportError_xportQ (e : E) (dest : Fsm) (s : State.Over E) :
    (transportError e dest s).xportQ = s.xportQ := rfl
@[simp] theorem transportError_readData (e : E) (dest : Fsm) (s : State.Over E) :
    (transportError e dest s).readData = s.readData := rfl
@[simp] theorem transportError_draws (e : E) (dest : Fsm) (s : State.Over E) :
    (transportError e dest s).draws = s.draws := rfl

/-! ### `illegal` -/
@[simp] theorem illegal_fsm (s : State.Over E) :
    (illegal s).fsm = s.fsm := rfl
@[simp] theorem illegal_rbuf (s : State.Over E) :
    (illegal s).rbuf = s.rbuf := rfl
@[simp] theorem illegal_humRaw (s : State.Over E) :
    (illegal s).humRaw = s.humRaw := rfl
@[simp] theorem illegal_tempRaw (s : State.Over E) :
    (illegal s).tempRaw = s.tempRaw := rfl
@[simp] theorem illegal_resValid (s : State.Over E) :
    (illegal s).resValid = false := rfl
@[simp] theorem illegal_rspValid (s : State.Over E) :
    (illegal s).rspValid = true := rfl
@[simp] theorem illegal_rspCode (s : State.Over E) :
    (illegal s).rspCode = rspBits .illegal := rfl
@[simp] theorem illegal_rspErr (s : State.Over E) :
    (illegal s).rspErr = none := rfl
@[simp] theorem illegal_outstanding (s : State.Over E) :
    (illegal s).outstanding = s.outstanding := rfl
@[simp] theorem illegal_needsInit (s : State.Over E) :
    (illegal s).needsInit = s.needsInit := rfl
@[simp] theorem illegal_faulted (s : State.Over E) :
    (illegal s).faulted = true := rfl
@[simp] theorem illegal_transcript (s : State.Over E) :
    (illegal s).transcript = s.transcript := rfl
@[simp] theorem illegal_turns (s : State.Over E) :
    (illegal s).turns = s.turns := rfl
@[simp] theorem illegal_hostQ (s : State.Over E) :
    (illegal s).hostQ = s.hostQ := rfl
@[simp] theorem illegal_xportQ (s : State.Over E) :
    (illegal s).xportQ = s.xportQ := rfl
@[simp] theorem illegal_readData (s : State.Over E) :
    (illegal s).readData = s.readData := rfl
@[simp] theorem illegal_draws (s : State.Over E) :
    (illegal s).draws = s.draws := rfl

/-! ### `placeWrite` -/
@[simp] theorem placeWrite_fsm (idx : Nat) (v : Word32) (s : State.Over E) :
    (placeWrite idx v s).fsm = s.fsm := rfl
@[simp] theorem placeWrite_rbuf (idx : Nat) (v : Word32) (s : State.Over E) :
    (placeWrite idx v s).rbuf = s.rbuf := rfl
@[simp] theorem placeWrite_humRaw (idx : Nat) (v : Word32) (s : State.Over E) :
    (placeWrite idx v s).humRaw = s.humRaw := rfl
@[simp] theorem placeWrite_tempRaw (idx : Nat) (v : Word32) (s : State.Over E) :
    (placeWrite idx v s).tempRaw = s.tempRaw := rfl
@[simp] theorem placeWrite_resValid (idx : Nat) (v : Word32) (s : State.Over E) :
    (placeWrite idx v s).resValid = s.resValid := rfl
@[simp] theorem placeWrite_rspValid (idx : Nat) (v : Word32) (s : State.Over E) :
    (placeWrite idx v s).rspValid = s.rspValid := rfl
@[simp] theorem placeWrite_rspCode (idx : Nat) (v : Word32) (s : State.Over E) :
    (placeWrite idx v s).rspCode = s.rspCode := rfl
@[simp] theorem placeWrite_rspErr (idx : Nat) (v : Word32) (s : State.Over E) :
    (placeWrite idx v s).rspErr = s.rspErr := rfl
@[simp] theorem placeWrite_outstanding (idx : Nat) (v : Word32) (s : State.Over E) :
    (placeWrite idx v s).outstanding = s.outstanding := rfl
@[simp] theorem placeWrite_needsInit (idx : Nat) (v : Word32) (s : State.Over E) :
    (placeWrite idx v s).needsInit = s.needsInit := rfl
@[simp] theorem placeWrite_faulted (idx : Nat) (v : Word32) (s : State.Over E) :
    (placeWrite idx v s).faulted = s.faulted := rfl
@[simp] theorem placeWrite_transcript (idx : Nat) (v : Word32) (s : State.Over E) :
    (placeWrite idx v s).transcript = s.transcript := rfl
@[simp] theorem placeWrite_turns (idx : Nat) (v : Word32) (s : State.Over E) :
    (placeWrite idx v s).turns = .host :: s.turns := rfl
@[simp] theorem placeWrite_hostQ (idx : Nat) (v : Word32) (s : State.Over E) :
    (placeWrite idx v s).hostQ = .write idx v :: s.hostQ := rfl
@[simp] theorem placeWrite_xportQ (idx : Nat) (v : Word32) (s : State.Over E) :
    (placeWrite idx v s).xportQ = s.xportQ := rfl
@[simp] theorem placeWrite_readData (idx : Nat) (v : Word32) (s : State.Over E) :
    (placeWrite idx v s).readData = s.readData := rfl
@[simp] theorem placeWrite_draws (idx : Nat) (v : Word32) (s : State.Over E) :
    (placeWrite idx v s).draws = s.draws := rfl

/-! ### `withdraw` -/
@[simp] theorem withdraw_fsm (s : State.Over E) : (withdraw s).fsm = s.fsm := by
  unfold withdraw; split <;> rfl
@[simp] theorem withdraw_rbuf (s : State.Over E) : (withdraw s).rbuf = s.rbuf := by
  unfold withdraw; split <;> rfl
@[simp] theorem withdraw_humRaw (s : State.Over E) : (withdraw s).humRaw = s.humRaw := by
  unfold withdraw; split <;> rfl
@[simp] theorem withdraw_tempRaw (s : State.Over E) : (withdraw s).tempRaw = s.tempRaw := by
  unfold withdraw; split <;> rfl
@[simp] theorem withdraw_resValid (s : State.Over E) : (withdraw s).resValid = s.resValid := by
  unfold withdraw; split <;> rfl
@[simp] theorem withdraw_rspValid (s : State.Over E) : (withdraw s).rspValid = s.rspValid := by
  unfold withdraw; split <;> rfl
@[simp] theorem withdraw_rspCode (s : State.Over E) : (withdraw s).rspCode = s.rspCode := by
  unfold withdraw; split <;> rfl
@[simp] theorem withdraw_rspErr (s : State.Over E) : (withdraw s).rspErr = s.rspErr := by
  unfold withdraw; split <;> rfl
@[simp] theorem withdraw_needsInit (s : State.Over E) : (withdraw s).needsInit = s.needsInit := by
  unfold withdraw; split <;> rfl
@[simp] theorem withdraw_faulted (s : State.Over E) : (withdraw s).faulted = s.faulted := by
  unfold withdraw; split <;> rfl
@[simp] theorem withdraw_turns (s : State.Over E) : (withdraw s).turns = s.turns := by
  unfold withdraw; split <;> rfl
@[simp] theorem withdraw_hostQ (s : State.Over E) : (withdraw s).hostQ = s.hostQ := by
  unfold withdraw; split <;> rfl
@[simp] theorem withdraw_xportQ (s : State.Over E) : (withdraw s).xportQ = s.xportQ := by
  unfold withdraw; split <;> rfl
@[simp] theorem withdraw_readData (s : State.Over E) : (withdraw s).readData = s.readData := by
  unfold withdraw; split <;> rfl
@[simp] theorem withdraw_outstanding (s : State.Over E) : (withdraw s).outstanding = none := by
  unfold withdraw; split <;> simp_all

/-! ### `blockReset` -/
@[simp] theorem blockReset_fsm (s : State.Over E) :
    (blockReset s).fsm = .uninit := by
  simp [blockReset]
@[simp] theorem blockReset_rbuf (s : State.Over E) :
    (blockReset s).rbuf = responseOfBits (Config.freeRbuf (withdraw s).draws) := by
  simp [blockReset]
@[simp] theorem blockReset_humRaw (s : State.Over E) :
    (blockReset s).humRaw = Config.freeHum (withdraw s).draws := by
  simp [blockReset]
@[simp] theorem blockReset_tempRaw (s : State.Over E) :
    (blockReset s).tempRaw = Config.freeTemp (withdraw s).draws := by
  simp [blockReset]
@[simp] theorem blockReset_resValid (s : State.Over E) :
    (blockReset s).resValid = false := by
  simp [blockReset]
@[simp] theorem blockReset_rspValid (s : State.Over E) :
    (blockReset s).rspValid = false := by
  simp [blockReset]
@[simp] theorem blockReset_rspCode (s : State.Over E) :
    (blockReset s).rspCode = Config.freeRspCode (withdraw s).draws := by
  simp [blockReset]
@[simp] theorem blockReset_rspErr (s : State.Over E) :
    (blockReset s).rspErr = none := by
  simp [blockReset]
@[simp] theorem blockReset_outstanding (s : State.Over E) :
    (blockReset s).outstanding = none := by
  simp [blockReset]
@[simp] theorem blockReset_needsInit (s : State.Over E) :
    (blockReset s).needsInit = true := by
  simp [blockReset]
@[simp] theorem blockReset_faulted (s : State.Over E) :
    (blockReset s).faulted = s.faulted := by
  simp [blockReset]
@[simp] theorem blockReset_transcript (s : State.Over E) :
    (blockReset s).transcript = (withdraw s).transcript := by
  simp [blockReset]
@[simp] theorem blockReset_turns (s : State.Over E) :
    (blockReset s).turns = s.turns := by
  simp [blockReset]
@[simp] theorem blockReset_hostQ (s : State.Over E) :
    (blockReset s).hostQ = s.hostQ := by
  simp [blockReset]
@[simp] theorem blockReset_xportQ (s : State.Over E) :
    (blockReset s).xportQ = s.xportQ := by
  simp [blockReset]
@[simp] theorem blockReset_readData (s : State.Over E) :
    (blockReset s).readData = s.readData := by
  simp [blockReset]
@[simp] theorem blockReset_draws (s : State.Over E) :
    (blockReset s).draws = (withdraw s).draws + 1 := by
  simp [blockReset]

end Sys2Proof.Machine
end

