-- ==== Sys2Proof/Laws/Ops.lean ====
section
/-! SUPPORT. What each shared operation and each event can do, said once: one inversion lemma per operation, which
proofs cite instead of unfolding it. -/

namespace Sys2Proof.Machine

open Sys2Proof

variable {E : Type} {p : Params}

/-! ### The machine behind the host's interface is the machine of `Config.params` and numbered errors

So every lemma here on `execOver p`, `stepOver p` and `coreOver E p` is one on `exec`, `step` and `core`. -/

theorem exec_eq_execOver (i : Instr) (s : State) : exec i s = execOver Config.params i s := rfl

theorem step_eq_stepOver (s : State) : step s = stepOver Config.params s := rfl

theorem core_eq_coreOver : core = coreOver XportError Config.params := rfl

/-! ### Issue and withdraw -/

theorem issue_of_none {r : Request} {s : State.Over E} (h : s.outstanding = none) :
    issue r s = .next (opened r s) := by
  simp [issue, h]

theorem issue_next {r : Request} {s t : State.Over E} (h : issue r s = .next t) :
    s.outstanding = none ∧ t = opened r s := by
  unfold issue at h
  split at h
  · cases h
  · next hn => exact ⟨by simpa using hn, by injection h with h; exact h.symm⟩

theorem issue_of_some {r : Request} {s : State.Over E} (h : s.outstanding ≠ none) :
    issue r s = .fault .requestOutstanding := by
  have : s.outstanding.isSome = true := Option.isSome_iff_ne_none.mpr h
  simp [issue, this]

/-- A withdrawal adds at most one entry, and it is a withdrawal of the request that was outstanding. -/
theorem withdraw_cases (s : State.Over E) :
    (s.outstanding = none ∧ withdraw s = s) ∨
    (∃ ms, s.outstanding = some (.delay ms) ∧ withdraw s = completed (.withdrawnTimer ms) s) ∨
    (∃ r, s.outstanding = some r ∧ (∀ ms, r ≠ .delay ms) ∧
      withdraw s = { completed (.withdrawnXport r (Config.freeWireOutcome s.draws)) s with
        draws := s.draws + 1 }) := by
  rcases ho : s.outstanding with _ | r
  · exact .inl ⟨rfl, by simp [withdraw, ho]⟩
  · cases r with
    | delay ms => exact .inr (.inl ⟨ms, rfl, by simp [withdraw, ho]⟩)
    | write a f => exact .inr (.inr ⟨.write a f, rfl, by simp, by simp [withdraw, ho]⟩)
    | writeRead a f n => exact .inr (.inr ⟨.writeRead a f n, rfl, by simp, by simp [withdraw, ho]⟩)

/-! ### Host requests and ABORT -/

theorem hostRequest_busy {legal : Bool} {start} {s : State.Over E} (h : isBusy s.fsm = true) :
    hostRequest legal start s = .next s := by
  simp [hostRequest, h]

theorem hostRequest_legal {start} {s : State.Over E} (h : isBusy s.fsm = false) :
    hostRequest true start s = start (accept s) := by
  simp [hostRequest, h]

theorem hostRequest_illegal {start} {s : State.Over E} (h : isBusy s.fsm = false) :
    hostRequest false start s = .next (illegal s) := by
  simp [hostRequest, h]

theorem hostRequest_next {legal : Bool} {start} {s t : State.Over E}
    (h : hostRequest legal start s = .next t) :
    (isBusy s.fsm = true ∧ t = s) ∨
    (isBusy s.fsm = false ∧ legal = true ∧ start (accept s) = .next t) ∨
    (isBusy s.fsm = false ∧ legal = false ∧ t = illegal s) := by
  unfold hostRequest at h
  split at h
  · next hb => injection h with h; exact .inl ⟨hb, h.symm⟩
  · next hb =>
    have hb' : isBusy s.fsm = false := by simpa using hb
    split at h
    · next hl => exact .inr (.inl ⟨hb', hl, h⟩)
    · next hl => injection h with h; exact .inr (.inr ⟨hb', by simpa using hl, h.symm⟩)

theorem abortWith_busy {s : State.Over E} (h : isBusy s.fsm = true) :
    abortWith true s =
      errorEntry .aborted (cancelledTo s.fsm) { withdraw s with needsInit := true } := by
  simp [abortWith, h]

theorem abortWith_idle {b : Bool} {s : State.Over E} (h : isBusy s.fsm = false) : abortWith b s = s := by
  simp [abortWith, h]

theorem abortWith_absent (s : State.Over E) : abortWith false s = s := by
  simp [abortWith]

/-- While busy none of the four host requests changes anything (R161, log 15). -/
theorem execOver_held {i : Instr} {s : State.Over E} (hb : isBusy s.fsm = true)
    (hi : i = .init ∨ i = .reset ∨ i = .read ∨ i = .reservedOp) : execOver p i s = .next s := by
  rcases hi with rfl | rfl | rfl | rfl <;>
    simp [execOver, requestInit, requestReset, requestRead, requestReserved, hostRequest_busy hb]

theorem requestInit_idle {s : State.Over E} (h : isBusy s.fsm = false) :
    requestInit p s = sendTrigger p { accept s with needsInit := true, fsm := .initW1 } :=
  hostRequest_legal h

theorem requestReset_ready {s : State.Over E} (h : s.fsm = .ready) :
    requestReset p s = sendSoftreset p { accept s with needsInit := true, fsm := .resetW } := by
  unfold requestReset
  rw [show (s.fsm == Fsm.ready) = true by simp [h]]
  exact hostRequest_legal (by simp [h, isBusy])

theorem requestReset_illegal {s : State.Over E} (h : s.fsm = .uninit) :
    requestReset p s = .next (illegal s) := by
  unfold requestReset
  rw [show (s.fsm == Fsm.ready) = false by simp [h]]
  exact hostRequest_illegal (by simp [h, isBusy])

theorem requestRead_ready {s : State.Over E} (h : s.fsm = .ready) :
    requestRead p s = sendMeasure p { accept s with fsm := .readWr } := by
  unfold requestRead
  rw [show (s.fsm == Fsm.ready) = true by simp [h]]
  exact hostRequest_legal (by simp [h, isBusy])

theorem requestRead_illegal {s : State.Over E} (h : s.fsm = .uninit) :
    requestRead p s = .next (illegal s) := by
  unfold requestRead
  rw [show (s.fsm == Fsm.ready) = false by simp [h]]
  exact hostRequest_illegal (by simp [h, isBusy])

theorem requestReserved_idle {s : State.Over E} (h : isBusy s.fsm = false) :
    requestReserved s = .next (illegal s) :=
  hostRequest_illegal h

/-- What an instruction does when it answers a next state. -/
theorem execOver_next {i : Instr} {s t : State.Over E} (h : execOver p i s = .next t) :
    -- a request held, or an ABORT without effect
    t = s ∨
    -- an illegal request
    (isBusy s.fsm = false ∧ t = illegal s) ∨
    -- an accepted request
    (i = .init ∧ isBusy s.fsm = false ∧ s.outstanding = none ∧
      t = opened (triggerReq p) { accept s with needsInit := true, fsm := .initW1 }) ∨
    (i = .reset ∧ s.fsm = .ready ∧ s.outstanding = none ∧
      t = opened (softresetReq p) { accept s with needsInit := true, fsm := .resetW }) ∨
    (i = .read ∧ s.fsm = .ready ∧ s.outstanding = none ∧
      t = opened (measureReq p) { accept s with fsm := .readWr }) ∨
    -- an ABORT in a waiting state
    (i = .abort ∧ p.hasAbort = true ∧ isBusy s.fsm = true ∧
      t = errorEntry .aborted (cancelledTo s.fsm) { withdraw s with needsInit := true }) ∨
    -- a frame sent
    (i = .trigger ∧ s.outstanding = none ∧ t = opened (triggerReq p) s) ∨
    (i = .calibrate ∧ s.outstanding = none ∧ t = opened (calibrateReq p) s) ∨
    (i = .softreset ∧ s.outstanding = none ∧ t = opened (softresetReq p) s) ∨
    (i = .measure ∧ s.outstanding = none ∧ t = opened (measureReq p) s) := by
  cases i <;> simp only [execOver] at h
  case init =>
    rcases hostRequest_next h with ⟨_, rfl⟩ | ⟨hb, _, h⟩ | ⟨hb, hl, rfl⟩
    · exact .inl rfl
    · obtain ⟨ho, rfl⟩ := issue_next h
      exact .inr (.inr (.inl ⟨rfl, hb, ho, rfl⟩))
    · cases hl
  case reset =>
    rcases hostRequest_next h with ⟨_, rfl⟩ | ⟨hb, hl, h⟩ | ⟨hb, hl, rfl⟩
    · exact .inl rfl
    · obtain ⟨ho, rfl⟩ := issue_next h
      exact .inr (.inr (.inr (.inl ⟨rfl, by simpa using hl, ho, rfl⟩)))
    · exact .inr (.inl ⟨hb, rfl⟩)
  case read =>
    rcases hostRequest_next h with ⟨_, rfl⟩ | ⟨hb, hl, h⟩ | ⟨hb, hl, rfl⟩
    · exact .inl rfl
    · obtain ⟨ho, rfl⟩ := issue_next h
      exact .inr (.inr (.inr (.inr (.inl ⟨rfl, by simpa using hl, ho, rfl⟩))))
    · exact .inr (.inl ⟨hb, rfl⟩)
  case reservedOp =>
    rcases hostRequest_next h with ⟨_, rfl⟩ | ⟨hb, hl, h⟩ | ⟨hb, hl, rfl⟩
    · exact .inl rfl
    · cases hl
    · exact .inr (.inl ⟨hb, rfl⟩)
  case abort =>
    unfold writeAbort at h
    injection h with h
    cases hb : isBusy s.fsm
    · rw [abortWith_idle hb] at h; exact .inl h.symm
    · cases hp : p.hasAbort
      · rw [hp, abortWith_absent] at h; exact .inl h.symm
      · rw [hp, abortWith_busy hb] at h
        exact .inr (.inr (.inr (.inr (.inr (.inl ⟨rfl, rfl, rfl, h.symm⟩)))))
  case trigger =>
    obtain ⟨ho, rfl⟩ := issue_next h
    simp [ho]
  case calibrate =>
    obtain ⟨ho, rfl⟩ := issue_next h
    simp [ho]
  case softreset =>
    obtain ⟨ho, rfl⟩ := issue_next h
    simp [ho]
  case measure =>
    obtain ⟨ho, rfl⟩ := issue_next h
    simp [ho]

/-! ### Completions -/

/-- What a transport completion does when it moves (the rows of R156). -/
theorem xportStep_next {c : XportReply E} {s t : State.Over E} (h : xportStep p c s = .next t) :
    (s.fsm = .initW1 ∧ c = .ok ∧ s.outstanding = none ∧
      t = opened (.delay Config.initDelay) { s with fsm := .initD1 }) ∨
    (s.fsm = .initW2 ∧ c = .ok ∧ s.outstanding = none ∧
      t = opened (.delay Config.initDelay) { s with fsm := .initD2 }) ∨
    (s.fsm = .resetW ∧ c = .ok ∧ s.outstanding = none ∧
      t = opened (.delay Config.resetDelay) { s with fsm := .resetD }) ∨
    (∃ e, (s.fsm = .initW1 ∨ s.fsm = .initW2) ∧ c = .err e ∧ t = initFailed e s) ∨
    (∃ e, (s.fsm = .resetW ∨ s.fsm = .readWr) ∧ c = .err e ∧ t = transportError e .ready s) ∨
    (∃ b, s.fsm = .readWr ∧ c = .okBuf b ∧ t = readDone p.calMask b s) := by
  unfold xportStep at h
  split at h
  · next hf => obtain ⟨ho, rfl⟩ := issue_next h; exact .inl ⟨hf, rfl, ho, rfl⟩
  · next e hf =>
    injection h with h
    exact .inr (.inr (.inr (.inl ⟨e, .inl hf, rfl, h.symm⟩)))
  · next hf => obtain ⟨ho, rfl⟩ := issue_next h; exact .inr (.inl ⟨hf, rfl, ho, rfl⟩)
  · next e hf =>
    injection h with h
    exact .inr (.inr (.inr (.inl ⟨e, .inr hf, rfl, h.symm⟩)))
  · next hf => obtain ⟨ho, rfl⟩ := issue_next h; exact .inr (.inr (.inl ⟨hf, rfl, ho, rfl⟩))
  · next e hf =>
    injection h with h
    exact .inr (.inr (.inr (.inr (.inl ⟨e, .inl hf, rfl, h.symm⟩))))
  · next b hf =>
    injection h with h
    exact .inr (.inr (.inr (.inr (.inr ⟨b, hf, rfl, h.symm⟩))))
  · next e hf =>
    injection h with h
    exact .inr (.inr (.inr (.inr (.inl ⟨e, .inr hf, rfl, h.symm⟩))))
  · cases h

theorem xportDone_next {c : XportReply E} {s t : State.Over E} (h : xportDone p c s = .next t) :
    ∃ r, s.outstanding = some r ∧ replyFits r c = true ∧
      xportStep p c (completed (.xportDone c) s) = .next t := by
  unfold xportDone at h
  split at h
  · cases h
  · next r hr =>
    split at h
    · next hf => exact ⟨r, hr, hf, h⟩
    · cases h

theorem xportDone_of_fits {c : XportReply E} {r : Request} {s : State.Over E}
    (hr : s.outstanding = some r) (hf : replyFits r c = true) :
    xportDone p c s = xportStep p c (completed (.xportDone c) s) := by
  simp [xportDone, hr, hf]

/-- What a timer completion does when it moves (the rows of R156). -/
theorem timerStep_next {s t : State.Over E} (h : timerStep p s = .next t) :
    (s.fsm = .initD1 ∧ s.outstanding = none ∧
      t = opened (calibrateReq p) { s with fsm := .initW2 }) ∨
    (s.fsm = .initD2 ∧ t = respond .ok { s with fsm := .ready, needsInit := false }) ∨
    (s.fsm = .resetD ∧ t = respond .ok { s with fsm := .ready }) := by
  unfold timerStep at h
  split at h
  · next hf => obtain ⟨ho, rfl⟩ := issue_next h; exact .inl ⟨hf, ho, rfl⟩
  · next hf => injection h with h; exact .inr (.inl ⟨hf, h.symm⟩)
  · next hf => injection h with h; exact .inr (.inr ⟨hf, h.symm⟩)
  all_goals cases h

theorem timerDone_next {s t : State.Over E} (h : timerDone p s = .next t) :
    ∃ ms, s.outstanding = some (.delay ms) ∧ timerStep p (completed .timerDone s) = .next t := by
  unfold timerDone at h
  split at h
  · next ms hr => exact ⟨ms, hr, h⟩
  all_goals cases h

theorem timerDone_of_delay {ms : Nat} {s : State.Over E} (hr : s.outstanding = some (.delay ms)) :
    timerDone p s = timerStep p (completed .timerDone s) := by
  simp [timerDone, hr]

/-- The two ends of a READ (R141, R142). -/
theorem readDone_cases (mask : Byte) (b : Response) (s : State.Over E) :
    ((statusDecode mask b.b0).cal = true ∧
      readDone mask b s = respond .ok { s with
        rbuf := b, humRaw := unpackHum b, tempRaw := unpackTemp b, resValid := true, fsm := .ready }) ∨
    ((statusDecode mask b.b0).cal = false ∧
      readDone mask b s = errorEntry .uncalibrated .ready { s with rbuf := b }) := by
  unfold readDone
  cases h : (statusDecode mask b.b0).cal
  · exact .inr ⟨rfl, by simp⟩
  · exact .inl ⟨rfl, by simp⟩

/-! ### Host reads, turns and the step -/

theorem hostRead_next {idx : Nat} {s t : State.Over E} (h : hostRead idx s = .next t) :
    ∃ v, readRegister idx s = .ok v ∧ t = { s with readData := some v } := by
  unfold hostRead at h
  split at h
  · next v hv => injection h with h; exact ⟨v, hv, h.symm⟩
  · cases h

/-- What the host's turn does when it answers a next state. -/
theorem hostTurn_next {s t : State.Over E} (h : hostTurn p (execOver p) s = .next t) :
    t = s ∨
    (∃ idx q v, s.hostQ = .read idx :: q ∧ t = { s with hostQ := q, readData := some v }) ∨
    (∃ idx v q, s.hostQ = .write idx v :: q ∧ t = { s with hostQ := q }) ∨
    (∃ idx v q i, s.hostQ = .write idx v :: q ∧ ¬ (idx = 0 ∧ isBusy s.fsm = true) ∧
      decode p (.hostWrite idx v) = .ok i ∧ execOver p i { s with hostQ := q } = .next t) := by
  unfold hostTurn at h
  split at h
  · injection h with h; exact .inl h.symm
  · next idx q hq =>
    obtain ⟨v, _, rfl⟩ := hostRead_next h
    exact .inr (.inl ⟨idx, q, v, hq, rfl⟩)
  · next idx v q hq =>
    split at h
    · injection h with h; exact .inl h.symm
    · next hb =>
      split at h
      · next i hd => exact .inr (.inr (.inr ⟨idx, v, q, i, hq, hb, hd, h⟩))
      · injection h with h; exact .inr (.inr (.inl ⟨idx, v, q, hq, h.symm⟩))

theorem hostTurn_nothing {s : State.Over E} (hq : s.hostQ = []) : hostTurn p (execOver p) s = .next s := by
  simp [hostTurn, hq]

theorem hostTurn_read {idx : Nat} {q : List HostAct} {s : State.Over E} (hq : s.hostQ = .read idx :: q) :
    hostTurn p (execOver p) s = hostRead idx { s with hostQ := q } := by
  simp [hostTurn, hq]

theorem hostTurn_held {idx : Nat} {v : Word32} {q : List HostAct} {s : State.Over E}
    (hq : s.hostQ = .write idx v :: q) (hb : idx = 0 ∧ isBusy s.fsm = true) :
    hostTurn p (execOver p) s = .next s := by
  simp [hostTurn, hq, hb]

theorem hostTurn_runs {idx : Nat} {v : Word32} {q : List HostAct} {i : Instr} {s : State.Over E}
    (hq : s.hostQ = .write idx v :: q) (hb : ¬ (idx = 0 ∧ isBusy s.fsm = true))
    (hd : decode p (.hostWrite idx v) = .ok i) :
    hostTurn p (execOver p) s = execOver p i { s with hostQ := q } := by
  simp [hostTurn, hq, hb, hd]

theorem hostTurn_ignored {idx : Nat} {v : Word32} {q : List HostAct} {e : DecodeError} {s : State.Over E}
    (hq : s.hostQ = .write idx v :: q) (hb : ¬ (idx = 0 ∧ isBusy s.fsm = true))
    (hd : decode p (.hostWrite idx v) = .error e) :
    hostTurn p (execOver p) s = .next { s with hostQ := q } := by
  simp [hostTurn, hq, hb, hd]

theorem xportTurn_nothing {s : State.Over E} (hq : s.xportQ = []) : xportTurn p s = .next s := by
  simp [xportTurn, hq]

theorem xportTurn_completes {c : XportReply E} {q : List (XportReply E)} {s : State.Over E}
    (hq : s.xportQ = c :: q) : xportTurn p s = xportDone p c { s with xportQ := q } := by
  simp [xportTurn, hq]

theorem xportTurn_next {s t : State.Over E} (h : xportTurn p s = .next t) :
    t = s ∨ ∃ c q, s.xportQ = c :: q ∧ xportDone p c { s with xportQ := q } = .next t := by
  unfold xportTurn at h
  split at h
  · injection h with h; exact .inl h.symm
  · next c q hq => exact .inr ⟨c, q, hq, h⟩

theorem stepOver_nil {s : State.Over E} (h : s.turns = []) : stepOver p s = .next s := by
  simp [stepOver, stepOnce, h]

theorem stepOver_cons {s : State.Over E} {a : Agent} {ts : List Agent} (h : s.turns = a :: ts) :
    stepOver p s = turnOf p (execOver p) a { s with turns := ts } := by
  simp [stepOver, stepOnce, h]

/-- What a step does when it answers a next state: no event, or one agent's. -/
theorem stepOver_next {s t : State.Over E} (h : stepOver p s = .next t) :
    (s.turns = [] ∧ t = s) ∨
    (∃ ts, s.turns = .host :: ts ∧ hostTurn p (execOver p) { s with turns := ts } = .next t) ∨
    (∃ ts, s.turns = .xport :: ts ∧ xportTurn p { s with turns := ts } = .next t) ∨
    (∃ ts, s.turns = .timer :: ts ∧ timerDone p { s with turns := ts } = .next t) ∨
    (∃ ts, s.turns = .platform :: ts ∧ t = blockReset { s with turns := ts }) := by
  rcases hs : s.turns with _ | ⟨a, ts⟩
  · rw [stepOver_nil hs] at h; injection h with h; exact .inl ⟨rfl, h.symm⟩
  · rw [stepOver_cons hs] at h
    cases a <;> simp only [turnOf] at h
    · exact .inr (.inl ⟨ts, rfl, h⟩)
    · exact .inr (.inr (.inl ⟨ts, rfl, h⟩))
    · exact .inr (.inr (.inr (.inl ⟨ts, rfl, h⟩)))
    · injection h with h; exact .inr (.inr (.inr (.inr ⟨ts, rfl, h.symm⟩)))

/-! ### Runs of several steps -/

theorem core_run_zero (s : State.Over E) : (coreOver E p).run 0 s = .next s := rfl

theorem core_run_next {k : Nat} {s t : State.Over E} (h : stepOver p s = .next t) :
    (coreOver E p).run (k + 1) s = (coreOver E p).run k t := by
  have hs : (coreOver E p).step s = .next t := h
  simp only [Host.Core.run, hs]

/-- The host commands decode as R80 and R82 say, and a write to any other register is no command. -/
theorem decode_hostWrite {idx : Nat} {v : Word32} {i : Instr}
    (h : decode p (.hostWrite idx v) = .ok i) :
    (idx = 0 ∧ i = decodeOp (opField v)) ∨ (idx = 1 ∧ i = .abort) := by
  unfold decode at h
  split at h
  · next hc => cases hc; injection h with h; exact .inl ⟨rfl, h.symm⟩
  · next hc => cases hc; injection h with h; exact .inr ⟨rfl, h.symm⟩
  · cases h
  · next hc => cases hc
  · next hc => cases hc

/-- What a host write runs: a host instruction, never a frame on its own. -/
theorem execOver_of_hostWrite {idx : Nat} {v : Word32} {i : Instr} {s t : State.Over E}
    (hd : decode p (.hostWrite idx v) = .ok i) (h : execOver p i s = .next t) :
    t = s ∨
    (isBusy s.fsm = false ∧ t = illegal s) ∨
    (isBusy s.fsm = false ∧ s.outstanding = none ∧
      t = opened (triggerReq p) { accept s with needsInit := true, fsm := .initW1 }) ∨
    (s.fsm = .ready ∧ s.outstanding = none ∧
      t = opened (softresetReq p) { accept s with needsInit := true, fsm := .resetW }) ∨
    (s.fsm = .ready ∧ s.outstanding = none ∧
      t = opened (measureReq p) { accept s with fsm := .readWr }) ∨
    (p.hasAbort = true ∧ isBusy s.fsm = true ∧
      t = errorEntry .aborted (cancelledTo s.fsm) { withdraw s with needsInit := true }) := by
  have hi : i ≠ .trigger ∧ i ≠ .calibrate ∧ i ≠ .softreset ∧ i ≠ .measure := by
    rcases decode_hostWrite hd with ⟨_, rfl⟩ | ⟨_, rfl⟩
    · unfold decodeOp
      (repeat' split) <;> simp
    · simp
  rcases execOver_next h with rfl | ⟨hb, rfl⟩ | ⟨rfl, hb, ho, rfl⟩ | ⟨rfl, hf, ho, rfl⟩ |
    ⟨rfl, hf, ho, rfl⟩ | ⟨rfl, hp, hb, rfl⟩ | ⟨rfl, _, rfl⟩ | ⟨rfl, _, rfl⟩ | ⟨rfl, _, rfl⟩ |
    ⟨rfl, _, rfl⟩ <;> simp_all

/-- Every way a step goes on: nothing of the block moves, the host's write runs an instruction, a completion arrives,
or a block reset. -/
theorem stepOver_events {s t : State.Over E} (h : stepOver p s = .next t) :
    (∃ ts q d, t = { s with turns := ts, hostQ := q, readData := d }) ∨
    (∃ ts q i, s.turns = .host :: ts ∧
      (∃ idx v, s.hostQ = .write idx v :: q ∧ ¬ (idx = 0 ∧ isBusy s.fsm = true) ∧
        decode p (.hostWrite idx v) = .ok i) ∧
      execOver p i { s with turns := ts, hostQ := q } = .next t) ∨
    (∃ ts c q, s.turns = .xport :: ts ∧ s.xportQ = c :: q ∧
      xportDone p c { s with turns := ts, xportQ := q } = .next t) ∨
    (∃ ts, s.turns = .timer :: ts ∧ timerDone p { s with turns := ts } = .next t) ∨
    (∃ ts, s.turns = .platform :: ts ∧ t = blockReset { s with turns := ts }) := by
  rcases stepOver_next h with ⟨_, rfl⟩ | ⟨ts, ht, h⟩ | ⟨ts, ht, h⟩ | ⟨ts, ht, h⟩ | ⟨ts, ht, h⟩
  · exact .inl ⟨_, _, _, rfl⟩
  · rcases hostTurn_next h with rfl | ⟨idx, q, v, _, rfl⟩ | ⟨idx, v, q, _, rfl⟩ |
      ⟨idx, v, q, i, hq, hb, hd, h⟩
    · exact .inl ⟨ts, _, _, rfl⟩
    · exact .inl ⟨ts, q, _, rfl⟩
    · exact .inl ⟨ts, q, _, rfl⟩
    · exact .inr (.inl ⟨ts, q, i, ht, ⟨idx, v, hq, hb, hd⟩, h⟩)
  · rcases xportTurn_next h with rfl | ⟨c, q, hq, h⟩
    · exact .inl ⟨ts, _, _, rfl⟩
    · exact .inr (.inr (.inl ⟨ts, c, q, ht, hq, h⟩))
  · exact .inr (.inr (.inr (.inl ⟨ts, ht, h⟩)))
  · exact .inr (.inr (.inr (.inr ⟨ts, ht, h⟩)))

end Sys2Proof.Machine
end

