-- ==== Sys2Proof/Laws/PerInstr.lean ====
section
/-! SUPPORT. The statement made for every instruction, and its lemma per constructor: the code of the instruction decodes
to it, with the parameter values the machine runs with. -/

namespace Sys2Proof.Laws.Encoding

open Sys2Proof

/-- The code of `i` decodes to `i`. -/
def Statement (i : Instr) : Prop :=
  decode Config.params (encode Config.params i) = .ok i

theorem init : Statement .init := by unfold Statement; rfl
theorem reset : Statement .reset := by unfold Statement; rfl
theorem read : Statement .read := by unfold Statement; rfl
theorem reservedOp : Statement .reservedOp := by unfold Statement; rfl
theorem abort : Statement .abort := by unfold Statement; rfl
theorem trigger : Statement .trigger := by unfold Statement; rfl
theorem calibrate : Statement .calibrate := by unfold Statement; rfl
theorem softreset : Statement .softreset := by unfold Statement; rfl
theorem measure : Statement .measure := by unfold Statement; rfl

end Sys2Proof.Laws.Encoding
end

