-- ==== Sys2Proof/Tests/Slice0.lean ====
section
/-! SUPPORT. Tests of the model against the words and vectors of spec/ (95_test_vectors.md, named V-... here), the refusals of
WellFormed, and for each statement with hypotheses a concrete case that meets them. -/

namespace Sys2Proof.Tests

open Sys2Proof Sys2Proof.Machine

/-! ### States the tests start from -/

/-- READY after a successful INIT, STAT = 0x501 (95_test_vectors.md section 2.2). -/
def ready : State := { State.reset with fsm := .ready, rspValid := true, needsInit := false }

/-- Waiting in `f`, the previous response OK. -/
def waiting (f : Fsm) : State :=
  { State.reset with fsm := f, outstanding := requestOf Config.params f }

/-- The host's next access is `h` and it is the host's turn. -/
def hostDoes (h : HostAct) (s : State) : State := { s with hostQ := [h], turns := [.host] }

/-- The transport completes next, with `c`. -/
def xportDoes (c : XportReply XportError) (s : State) : State := { s with xportQ := [c], turns := [.xport] }

/-- The timer completes next. -/
def timerDoes (s : State) : State := { s with turns := [.timer] }

/-- The platform resets the block next. -/
def platformDoes (s : State) : State := { s with turns := [.platform] }

/-- The state an outcome goes on to, if it does. -/
def nextOf {E : Type} : Host.Outcome (State.Over E) Fault Refusal → Option (State.Over E)
  | .next s => some s
  | .fault _ => none
  | .refused _ => none

/-- STAT after one step. -/
def statAfter (s : State) : Option Word32 := (nextOf (step s)).map statWord

/-- The response of V-EX-1, with status byte `st`. -/
def exampleResponse (st : Byte) : Response := ⟨st, 0x19#8, 0x99#8, 0x9A#8, 0x19#8, 0x99#8, 0x00#8⟩

/-- READY after V-S-8, STAT = 0x511. -/
def measured : State :=
  { ready with
    rbuf := exampleResponse 0x08#8, humRaw := 0x19999#20, tempRaw := 0xA1999#20, resValid := true }

/-- UNINIT after V-S-2, STAT = 0x003, holding error e1. -/
def failed : State :=
  { State.reset with rspValid := true, rspCode := 0b001#3, rspErr := some { tag := 1 } }

/-! ### Every check of WellFormed refuses an ill-formed term -/

theorem test_wf_accepts_the_defaults : Config.params.wf = true := by decide

theorem test_wf_refuses_equal_opcodes :
    ({ Config.params with opcReset := 0xE1#8 } : Params).opcodesDistinct = false ∧
      ({ Config.params with opcReset := 0xE1#8 } : Params).wf = false := by decide

theorem test_wf_refuses_an_empty_mask :
    ({ Config.params with calMask := 0x00#8 } : Params).calMaskOneBit = false ∧
      ({ Config.params with calMask := 0x00#8 } : Params).wf = false := by decide

theorem test_wf_refuses_a_mask_of_two_bits :
    ({ Config.params with calMask := 0x18#8 } : Params).calMaskOneBit = false := by decide

theorem test_wf_refuses_abort_without_the_option :
    Instr.wf { Config.params with hasAbort := false } .abort = false ∧
      Instr.wf Config.params .abort = true := by decide

theorem test_wf_refuses_another_opcode :
    Frame.wf Config.params ⟨0x71#8, 0x00#8, 0x00#8⟩ = false ∧
      Frame.wf Config.params ⟨0xE1#8, 0x08#8, 0x00#8⟩ = true := by decide

/-- V-C-19. -/
theorem test_wf_refuses_a_count_of_2_to_the_20 :
    rawCountWf 0x100000 = false ∧ rawCountWf 0xFFFFF = true ∧ humidityOf 0x100000 = none ∧
      temperatureOf 0x100000 = none := by decide

/-! ### Words written out bit by bit from the encodings (R80, R82, R85, R86) -/

/-- Register 0, bits 1:0 = 00, and with bits 31:2 all ones. -/
theorem test_decode_init :
    decode Config.params (.hostWrite 0 0b00000000000000000000000000000000#32) = .ok .init ∧
      decode Config.params (.hostWrite 0 0b11111111111111111111111111111100#32) = .ok .init :=
  ⟨rfl, rfl⟩

/-- Register 0, bits 1:0 = 01. -/
theorem test_decode_reset :
    decode Config.params (.hostWrite 0 0b00000000000000000000000000000001#32) = .ok .reset := rfl

/-- Register 0, bits 1:0 = 10, and 0xFFFFFFFE of P4. -/
theorem test_decode_read :
    decode Config.params (.hostWrite 0 0b00000000000000000000000000000010#32) = .ok .read ∧
      decode Config.params (.hostWrite 0 0xFFFFFFFE#32) = .ok .read :=
  ⟨rfl, rfl⟩

/-- Register 0, bits 1:0 = 11. -/
theorem test_decode_reservedOp :
    decode Config.params (.hostWrite 0 0b00000000000000000000000000000011#32) = .ok .reservedOp := rfl

/-- Register 1, any value. -/
theorem test_decode_abort :
    decode Config.params (.hostWrite 1 0b00000000000000000000000000000000#32) = .ok .abort ∧
      decode Config.params (.hostWrite 1 0b10000000000000000000000000000011#32) = .ok .abort :=
  ⟨rfl, rfl⟩

/-- V-W-1: opc 10101000, data 00000000 00000000. -/
theorem test_decode_trigger :
    decode Config.params (.wire [0b10101000#8, 0b00000000#8, 0b00000000#8]) = .ok .trigger := rfl

/-- V-W-2, V-W-6: opc 11100001, data 00001000 00000000, never the other way round. -/
theorem test_decode_calibrate :
    decode Config.params (.wire [0b11100001#8, 0b00001000#8, 0b00000000#8]) = .ok .calibrate ∧
      decode Config.params (.wire [0b11100001#8, 0b00000000#8, 0b00001000#8]) =
        .error (.otherDataWord 0xE1#8 0x0008#16) :=
  ⟨rfl, rfl⟩

/-- V-W-3: opc 10111010, data 00000000 00000000. -/
theorem test_decode_softreset :
    decode Config.params (.wire [0b10111010#8, 0b00000000#8, 0b00000000#8]) = .ok .softreset := rfl

/-- V-W-4: opc 10101100, data 11111111 00000000. -/
theorem test_decode_measure :
    decode Config.params (.wire [0b10101100#8, 0b11111111#8, 0b00000000#8]) = .ok .measure := rfl

/-- R43, R85, R87: what is no instruction is refused by name. -/
theorem test_decode_refuses :
    decode Config.params (.hostWrite 2 0#32) = .error (.notCommandRegister 2) ∧
      decode Config.params (.wire [0xA8#8, 0x00#8]) = .error (.frameLength 2) ∧
      decode Config.params (.wire [0x71#8, 0x00#8, 0x00#8]) = .error (.unknownOpcode 0x71#8) :=
  ⟨rfl, rfl, rfl⟩

/-- V-W-1 to V-W-4, the column "as 24 bits". -/
theorem test_frames_as_24_bits :
    (triggerFrame Config.params).word24 = 0xA80000#24 ∧
      (calibrateFrame Config.params).word24 = 0xE10800#24 ∧
      (softresetFrame Config.params).word24 = 0xBA0000#24 ∧
      (measureFrame Config.params).word24 = 0xACFF00#24 := by decide

/-! ### One step of each instruction -/

/-- V-S-1 (first event), V-S-50, V-W-1: INIT from UNINIT. -/
theorem test_init_starts :
    statAfter (State.reset.withFetchWord 32 0x00000000) = some 0x120#32 ∧
      ((nextOf (step (State.reset.withFetchWord 32 0))).map fun t => t.transcript.map (entryText errorName)) =
        some ["W 38: A8 00 00".toList] := by decide

/-- V-S-5: INIT from READY whose first write fails leaves UNINIT, STAT = 0x003. -/
theorem test_init_fails :
    statAfter (xportDoes (.err { tag := 1 }) (waiting .initW1)) = some 0x003#32 := by decide

/-- V-S-54: RESET in READY. -/
theorem test_reset_starts :
    statAfter (ready.withFetchWord 32 0x00000001) = some 0x620#32 := by decide

/-- V-S-7: the Reset write fails, no delay follows. -/
theorem test_reset_fails :
    statAfter (xportDoes (.err { tag := 2 }) (waiting .resetW)) = some 0x503#32 ∧
      ((nextOf (step (xportDoes (.err { tag := 2 }) (waiting .resetW)))).map fun t =>
        t.outstanding) = some none := by decide

/-- V-S-8: READ completes with the bytes of V-EX-1. -/
theorem test_read_succeeds :
    statAfter (xportDoes (.okBuf (exampleResponse 0x08#8)) (waiting .readWr)) = some 0x511#32 ∧
      ((nextOf (step (xportDoes (.okBuf (exampleResponse 0x08#8)) (waiting .readWr)))).map fun t =>
        (t.humRaw, t.tempRaw)) = some (0x19999#20, 0xA1999#20) := by decide

/-- V-S-9: READ completes with status byte 0x00. -/
theorem test_read_uncalibrated :
    statAfter (xportDoes (.okBuf (exampleResponse 0x00#8)) (waiting .readWr)) = some 0x505#32 := by
  decide

/-- V-S-22: the reserved op in UNINIT; V-S-23: in READY after V-S-8, `res_valid` cleared. -/
theorem test_reservedOp_is_illegal :
    statAfter (State.reset.withFetchWord 32 0x00000003) = some 0x007#32 ∧
      statAfter (measured.withFetchWord 32 0x00000003) = some 0x507#32 := by decide

/-- V-S-20, V-S-24, P4 line 1: RESET and READ in UNINIT, the run marked faulted. -/
theorem test_illegal_marks_the_run :
    statAfter (State.reset.withFetchWord 32 0x00000001) = some 0x007#32 ∧
      statAfter (failed.withFetchWord 32 0x00000002) = some 0x007#32 ∧
      ((nextOf (step (State.reset.withFetchWord 32 2))).map fun t => t.faulted) = some true := by
  decide

/-- V-S-31: ABORT in INIT_D1; V-S-37: ABORT in READ_WR. -/
theorem test_abort_cancels :
    statAfter (hostDoes (.write 1 0#32) (waiting .initD1)) = some 0x009#32 ∧
      statAfter (hostDoes (.write 1 0#32) (waiting .readWr)) = some 0x509#32 := by decide

/-- V-S-38, V-S-39: ABORT in an idle state. -/
theorem test_abort_when_idle :
    statAfter (hostDoes (.write 1 0#32) ready) = some 0x501#32 ∧
      statAfter (hostDoes (.write 1 0#32) failed) = some 0x003#32 := by decide

/-- V-W-7: with other opcode parameters INIT sends frames with those opcode bytes. -/
theorem test_trigger_with_parameters :
    ((nextOf (stepOver { Config.params with opcGetRaw := 0x11#8, opcCalibrate := 0x22#8 }
        (hostDoes (.write 0 0#32) State.reset))).map fun t => t.outstanding.map requestText) =
      some (some "W 38: 11 00 00".toList) ∧
    ((nextOf (stepOver { Config.params with opcGetRaw := 0x11#8, opcCalibrate := 0x22#8 }
        (timerDoes (waiting .initD1)))).map fun t => t.outstanding.map requestText) =
      some (some "W 38: 22 08 00".toList) := by decide

/-- V-S-40: without HAS_ABORT a write to register 1 in READ_WR is ignored, and the READ then completes. -/
theorem test_abort_absent :
    ((nextOf (stepOver { Config.params with hasAbort := false }
        (hostDoes (.write 1 0#32) (waiting .readWr)))).map statWord) = some 0x820#32 ∧
    ((nextOf (stepOver { Config.params with hasAbort := false }
        (xportDoes (.okBuf (exampleResponse 0x08#8)) (waiting .readWr)))).map statWord) =
      some 0x511#32 := by decide

/-- R12: an error of another type is stored and handed out as it arrived. -/
theorem test_error_of_another_type :
    ((nextOf (stepOver Config.params
        { State.resetOf String with
          fsm := .initW1, outstanding := requestOf Config.params .initW1,
          turns := [.xport], xportQ := [.err "nack"] })).map fun t => t.rspErr) =
      some (some "nack") := by decide

/-- V-S-52: the timer ends INIT_D1 and CALIBRATE is sent. -/
theorem test_calibrate_sent :
    statAfter (State.reset.withFetchWord 24 0xE10800) = some 0x320#32 ∧
      ((nextOf (step (State.reset.withFetchWord 24 0xE10800))).map fun t =>
        t.outstanding.map requestText) = some (some "W 38: E1 08 00".toList) := by decide

/-- The frame SOFTRESET of V-S-6. -/
theorem test_softreset_sent :
    ((nextOf (step (State.reset.withFetchWord 24 0xBA0000))).map fun t =>
      t.outstanding.map requestText) = some (some "W 38: BA 00 00".toList) := by decide

/-- The frame MEASURE of V-S-8. -/
theorem test_measure_sent :
    ((nextOf (step (State.reset.withFetchWord 24 0xACFF00))).map fun t =>
      t.outstanding.map requestText) = some (some "WR 38: AC FF 00 / 7".toList) := by decide

/-! ### Other events -/

/-- V-S-60, V-S-61: completions with no move. -/
theorem test_no_move :
    step (timerDoes (waiting .initW1)) = .refused (.noMove .timer) ∧
      step (xportDoes .ok ready) = .refused (.noMove .xport) := ⟨rfl, rfl⟩

/-- V-S-70: BlockReset in READ_WR. -/
theorem test_block_reset :
    ((nextOf (step (platformDoes (waiting .readWr)))).map fun t =>
      (t.fsm, t.rspValid, t.resValid, t.rspErr, t.needsInit)) =
      some (.uninit, false, false, none, true) := by decide

/-- V-S-8, V-S-2, V-S-71: host reads of HUM, ERR, and of HUM without a result. -/
theorem test_host_reads :
    ((nextOf (step (hostDoes (.read 3) measured))).map fun t => t.readData) =
        some (some (.word 0x00019999#32)) ∧
      ((nextOf (step (hostDoes (.read 5) failed))).map fun t => t.readData) =
        some (some (.err { tag := 1 })) ∧
      step (hostDoes (.read 3) State.reset) = .fault .readWithoutResult :=
  ⟨by decide, by decide, rfl⟩

/-- V-S-57: busy in READ_WR after an UNCALIBRATED response. -/
theorem test_stat_keeps_the_last_code :
    statWord { waiting .readWr with rspCode := 0b010#3 } = 0x824#32 := by decide

/-! ### Status decoder, unpacker and conversions -/

/-- V-D-3 (0x1C), V-D-5 (0xF7), V-D-9 (0x40), V-D-12 (0x07). -/
theorem test_status_decode :
    statusDecode 0x08#8 0x1C#8 = ⟨false, 0b00#2, true, true, true, false, false⟩ ∧
      statusDecode 0x08#8 0xF7#8 = ⟨true, 0b11#2, true, false, true, true, true⟩ ∧
      statusDecode 0x08#8 0x40#8 = ⟨false, 0b10#2, false, false, false, false, false⟩ ∧
      statusDecode 0x08#8 0x07#8 = ⟨false, 0b00#2, false, false, true, true, true⟩ := by decide

/-- V-D-16. -/
theorem test_status_decode_other_mask :
    (statusDecode 0x80#8 0x08#8).cal = false ∧ (statusDecode 0x80#8 0x80#8).cal = true := by decide

/-- V-U-4, V-U-8, V-U-9. -/
theorem test_unpack :
    unpackHum ⟨0x08#8, 0x12#8, 0x34#8, 0x56#8, 0x78#8, 0x9A#8, 0xBC#8⟩ = 0x12345#20 ∧
      unpackTemp ⟨0x08#8, 0x12#8, 0x34#8, 0x56#8, 0x78#8, 0x9A#8, 0xBC#8⟩ = 0x6789A#20 ∧
      unpackHum ⟨0x08#8, 0x00#8, 0x00#8, 0xF0#8, 0x00#8, 0x00#8, 0x00#8⟩ = 0x0000F#20 ∧
      unpackTemp ⟨0x08#8, 0x00#8, 0x00#8, 0x01#8, 0x00#8, 0x00#8, 0x00#8⟩ = 0x10000#20 := by decide

/-- V-U-16. -/
theorem test_pack :
    packResponse 0x08#8 0x12345#20 0x6789A#20 0x00#8 =
      ⟨0x08#8, 0x12#8, 0x34#8, 0x56#8, 0x78#8, 0x9A#8, 0x00#8⟩ := by decide

/-- V-C-4, V-C-11, V-C-16: humidity bits. -/
theorem test_humidity_bits :
    relativeHumidityPercent ⟨0x19999#20⟩ = 0x411FFFC4#32 ∧
      relativeHumidityPercent ⟨0xA3D71#20⟩ = 0x42800004#32 ∧
      relativeHumidityPercent ⟨0xFFFFF#20⟩ = 0x42C7FFF4#32 := by decide

/-- V-C-1, V-C-6, V-C-7, V-C-11: temperature bits. -/
theorem test_celsius_bits :
    celsius ⟨0x00000#20⟩ = 0xC2480000#32 ∧ celsius ⟨0x28F5D#20⟩ = 0xC18FFFAC#32 ∧
      celsius ⟨0x40000#20⟩ = 0x00000000#32 ∧ celsius ⟨0xA3D71#20⟩ = 0x429C0008#32 := by decide

/-! ### Host and transcript text -/

/-- R92's forms, with the bytes of V-S-8 and V-S-10. -/
theorem test_transcript_text :
    entryText errorName (.issued (measureReq Config.params)) = "WR 38: AC FF 00 / 7".toList ∧
      entryText errorName (.xportDone (.okBuf (exampleResponse 0x08#8))) =
        "-> ok [08 19 99 9A 19 99 00]".toList ∧
      entryText errorName (.xportDone (.err { tag := 1 })) = "-> err(e1)".toList ∧
      entryText errorName (.issued (.delay 300)) = "D 300".toList ∧
      entryText errorName .timerDone = "-> done".toList := by decide

/-! ### Witnesses: a concrete case that meets every hypothesis of each statement, one for each clause -/

theorem witness_DecodeAndEncodeAgree :
    Config.params.wf = true ∧
      decode Config.params (.wire [0xBA#8, 0x00#8, 0x00#8]) = .ok .softreset :=
  ⟨by decide, rfl⟩

/-- A block without the option, a write to register 1 while busy. -/
theorem witness_WithoutAbortTheWriteIsIgnored :
    ({ Config.params with hasAbort := false } : Params).hasAbort = false ∧
      (hostDoes (.write 1 7#32) (waiting .readWr)).turns = .host :: [] ∧
      (hostDoes (.write 1 7#32) (waiting .readWr)).hostQ = .write 1 7#32 :: [] := ⟨rfl, rfl, rfl⟩

theorem witness_BlockResetFromAnyState :
    (platformDoes (waiting .readWr)).turns = .platform :: [] := rfl

/-- A transport request and a delay. -/
theorem witness_WithdrawnRequestNeverCompletes :
    (waiting .readWr).outstanding = some (measureReq Config.params) ∧
      (∀ ms, measureReq Config.params ≠ .delay ms) ∧
      (waiting .resetD).outstanding = some (.delay 20) :=
  ⟨rfl, fun _ h => Request.noConfusion h, rfl⟩

theorem witness_StatShowsEveryField :
    (hostDoes (.read 2) measured).turns = .host :: [] ∧
      (hostDoes (.read 2) measured).hostQ = .read 2 :: [] := ⟨rfl, rfl⟩

theorem witness_ResultReadsNeedAValidResult :
    (hostDoes (.read 3) measured).turns = .host :: [] ∧
      ((hostDoes (.read 3) measured).hostQ = .read 3 :: [] ∧
        (hostDoes (.read 3) measured).resValid = true) ∧
      ((hostDoes (.read 4) measured).hostQ = .read 4 :: [] ∧
        (hostDoes (.read 4) measured).resValid = true) ∧
      (hostDoes (.read 4) ready).turns = .host :: [] ∧
      (hostDoes (.read 4) ready).hostQ = .read 4 :: [] ∧
      (hostDoes (.read 4) ready).resValid = false :=
  ⟨rfl, ⟨rfl, rfl⟩, ⟨rfl, rfl⟩, rfl, rfl, rfl⟩

theorem witness_ErrorReadNeedsATransportError :
    ((hostDoes (.read 5) failed).turns = .host :: [] ∧
      (hostDoes (.read 5) failed).hostQ = .read 5 :: [] ∧
      (hostDoes (.read 5) failed).rspCode = 0b001#3 ∧
      (hostDoes (.read 5) failed).rspErr = some { tag := 1 }) ∧
    ((hostDoes (.read 5) ready).turns = .host :: [] ∧
      (hostDoes (.read 5) ready).hostQ = .read 5 :: [] ∧
      (hostDoes (.read 5) ready).rspCode ≠ 0b001#3 ∧
      (hostDoes (.read 5) ready).rspErr = none) :=
  ⟨⟨rfl, rfl, rfl, rfl⟩, rfl, rfl, by decide, rfl⟩

/-- Reads of 0, 1 and 6, the first above 5; writes of 2, the first register that is no command, and of 6. -/
theorem witness_OtherRegisterAccessesAreInert :
    (hostDoes (.read 0) ready).turns = .host :: [] ∧
      (hostDoes (.read 0) ready).hostQ = .read 0 :: [] ∧
      (hostDoes (.read 1) ready).hostQ = .read 1 :: [] ∧
      (5 < 6 ∧ (hostDoes (.read 6) ready).hostQ = .read 6 :: []) ∧
      (1 < 2 ∧ (hostDoes (.write 2 7#32) ready).hostQ = .write 2 7#32 :: []) ∧
      (1 < 6 ∧ (hostDoes (.write 6 7#32) ready).hostQ = .write 6 7#32 :: []) :=
  ⟨rfl, rfl, rfl, ⟨by decide, rfl⟩, ⟨by decide, rfl⟩, by decide, rfl⟩

theorem witness_RequestsAreHeldWhileBusy :
    isBusy (hostDoes (.write 0 2#32) (waiting .readWr)).fsm = true ∧
      (hostDoes (.write 0 2#32) (waiting .readWr)).turns = .host :: [] ∧
      (hostDoes (.write 0 2#32) (waiting .readWr)).hostQ = .write 0 2#32 :: [] := ⟨rfl, rfl, rfl⟩

/-- A request when idle, and an ABORT while busy. -/
theorem witness_StepRunsTheDecodedWrite :
    ((hostDoes (.write 0 2#32) ready).turns = .host :: [] ∧
      (hostDoes (.write 0 2#32) ready).hostQ = .write 0 2#32 :: [] ∧
      ¬ (0 = 0 ∧ isBusy (hostDoes (.write 0 2#32) ready).fsm = true) ∧
      decode Config.params (.hostWrite 0 2#32) = .ok .read) ∧
    ((hostDoes (.write 1 0#32) (waiting .readWr)).turns = .host :: [] ∧
      (hostDoes (.write 1 0#32) (waiting .readWr)).hostQ = .write 1 0#32 :: [] ∧
      ¬ (1 = 0 ∧ isBusy (hostDoes (.write 1 0#32) (waiting .readWr)).fsm = true) ∧
      decode Config.params (.hostWrite 1 0#32) = .ok .abort) :=
  ⟨⟨rfl, rfl, by decide, rfl⟩, rfl, rfl, by decide, rfl⟩

theorem witness_OperationsSendTheirFrames :
    State.reset.fsm = .uninit ∧ ready.fsm = .ready ∧
      (timerDoes (waiting .initD1)).turns = .timer :: [] ∧
      (timerDoes (waiting .initD1)).fsm = .initD1 ∧
      (timerDoes (waiting .initD1)).outstanding = some (.delay 300) := ⟨rfl, rfl, rfl, rfl, rfl⟩

theorem witness_FramesIssueTheirRequests : State.reset.outstanding = none := rfl

theorem witness_FramesNeedNoRequestOutstanding : (waiting .initD1).outstanding ≠ none := by decide

theorem witness_InitIsAccepted :
    (State.reset.fsm = .uninit ∧ State.reset.outstanding = none) ∧
      (ready.fsm = .ready ∧ ready.outstanding = none) := ⟨⟨rfl, rfl⟩, rfl, rfl⟩

theorem witness_ResetIsAccepted : ready.fsm = .ready ∧ ready.outstanding = none := ⟨rfl, rfl⟩

/-- The ghost true and false. -/
theorem witness_ReadIsAccepted :
    (ready.fsm = .ready ∧ ready.outstanding = none) ∧ ready.needsInit = false ∧
      ({ ready with needsInit := true } : State).fsm = .ready ∧
      ({ ready with needsInit := true } : State).outstanding = none :=
  ⟨⟨rfl, rfl⟩, rfl, rfl, rfl⟩

theorem witness_IllegalRequestsAreAnswered : failed.fsm = .uninit ∧ measured.fsm = .ready := ⟨rfl, rfl⟩

theorem witness_AbortCancelsTheOperation :
    (waiting .initW1).fsm = .initW1 ∧ (waiting .initD1).fsm = .initD1 ∧
      (waiting .initW2).fsm = .initW2 ∧ (waiting .initD2).fsm = .initD2 ∧
      (waiting .resetW).fsm = .resetW ∧ (waiting .resetD).fsm = .resetD ∧
      (waiting .readWr).fsm = .readWr := ⟨rfl, rfl, rfl, rfl, rfl, rfl, rfl⟩

theorem witness_AbortWhenIdleDoesNothing : failed.fsm = .uninit ∧ ready.fsm = .ready := ⟨rfl, rfl⟩

/-- One case for each group of instructions the frame names. -/
theorem witness_InstructionsLeaveTheRestAlone :
    (∃ t, exec .init measured = .next t) ∧ (∃ t, exec .reset measured = .next t) ∧
      (∃ t, exec .read measured = .next t) ∧ (∃ t, exec .reservedOp measured = .next t) ∧
      (∃ t, exec .abort (waiting .readWr) = .next t) ∧ (∃ t, exec .trigger ready = .next t) ∧
      (∃ t, exec .calibrate ready = .next t) ∧ (∃ t, exec .softreset ready = .next t) ∧
      (∃ t, exec .measure ready = .next t) :=
  ⟨⟨_, rfl⟩, ⟨_, rfl⟩, ⟨_, rfl⟩, ⟨_, rfl⟩, ⟨_, rfl⟩, ⟨_, rfl⟩, ⟨_, rfl⟩, ⟨_, rfl⟩, ⟨_, rfl⟩⟩

theorem witness_InitWritesCompleteOk :
    ((xportDoes .ok (waiting .initW1)).turns = .xport :: [] ∧
      (xportDoes .ok (waiting .initW1)).xportQ = .ok :: [] ∧
      (xportDoes .ok (waiting .initW1)).outstanding =
        some (.write 0x38#7 ⟨0xA8#8, 0x00#8, 0x00#8⟩) ∧
      (xportDoes .ok (waiting .initW1)).fsm = .initW1) ∧
    ((xportDoes .ok (waiting .initW2)).turns = .xport :: [] ∧
      (xportDoes .ok (waiting .initW2)).xportQ = .ok :: [] ∧
      (xportDoes .ok (waiting .initW2)).outstanding =
        some (.write 0x38#7 ⟨0xE1#8, 0x08#8, 0x00#8⟩) ∧
      (xportDoes .ok (waiting .initW2)).fsm = .initW2) := by decide

theorem witness_InitWriteFailureEndsInUninit :
    ((xportDoes (.err { tag := 1 }) (waiting .initW1)).turns = .xport :: [] ∧
      (xportDoes (.err { tag := 1 }) (waiting .initW1)).xportQ = .err { tag := 1 } :: [] ∧
      (xportDoes (.err { tag := 1 }) (waiting .initW1)).outstanding =
        some (.write 0x38#7 ⟨0xA8#8, 0x00#8, 0x00#8⟩) ∧
      (xportDoes (.err { tag := 1 }) (waiting .initW1)).fsm = .initW1) ∧
    ((xportDoes (.err { tag := 2 }) (waiting .initW2)).turns = .xport :: [] ∧
      (xportDoes (.err { tag := 2 }) (waiting .initW2)).xportQ = .err { tag := 2 } :: [] ∧
      (xportDoes (.err { tag := 2 }) (waiting .initW2)).outstanding =
        some (.write 0x38#7 ⟨0xE1#8, 0x08#8, 0x00#8⟩) ∧
      (xportDoes (.err { tag := 2 }) (waiting .initW2)).fsm = .initW2) := by decide

theorem witness_InitDelaysComplete :
    ((timerDoes (waiting .initD1)).turns = .timer :: [] ∧
      (timerDoes (waiting .initD1)).outstanding = some (.delay 300) ∧
      (timerDoes (waiting .initD1)).fsm = .initD1) ∧
    ((timerDoes (waiting .initD2)).turns = .timer :: [] ∧
      (timerDoes (waiting .initD2)).outstanding = some (.delay 300) ∧
      (timerDoes (waiting .initD2)).fsm = .initD2) := by decide

theorem witness_ResetWriteCompletes :
    ((xportDoes (.err { tag := 2 }) (waiting .resetW)).turns = .xport :: [] ∧
      (xportDoes (.err { tag := 2 }) (waiting .resetW)).fsm = .resetW ∧
      (xportDoes (.err { tag := 2 }) (waiting .resetW)).outstanding =
        some (.write 0x38#7 ⟨0xBA#8, 0x00#8, 0x00#8⟩) ∧
      (xportDoes (.err { tag := 2 }) (waiting .resetW)).xportQ = .err { tag := 2 } :: []) ∧
    ((xportDoes .ok (waiting .resetW)).turns = .xport :: [] ∧
      (xportDoes .ok (waiting .resetW)).fsm = .resetW ∧
      (xportDoes .ok (waiting .resetW)).outstanding =
        some (.write 0x38#7 ⟨0xBA#8, 0x00#8, 0x00#8⟩) ∧
      (xportDoes .ok (waiting .resetW)).xportQ = .ok :: []) := by decide

theorem witness_ResetDelayCompletes :
    (timerDoes (waiting .resetD)).turns = .timer :: [] ∧ (timerDoes (waiting .resetD)).fsm = .resetD ∧
      (timerDoes (waiting .resetD)).outstanding = some (.delay 20) := by decide

theorem witness_ReadWithoutCalibrationIsRejected :
    (xportDoes (.okBuf (exampleResponse 0xF7#8)) (waiting .readWr)).turns = .xport :: [] ∧
      (xportDoes (.okBuf (exampleResponse 0xF7#8)) (waiting .readWr)).xportQ =
        .okBuf (exampleResponse 0xF7#8) :: [] ∧
      (xportDoes (.okBuf (exampleResponse 0xF7#8)) (waiting .readWr)).fsm = .readWr ∧
      (xportDoes (.okBuf (exampleResponse 0xF7#8)) (waiting .readWr)).outstanding =
        some (.writeRead 0x38#7 ⟨0xAC#8, 0xFF#8, 0x00#8⟩ 7) ∧
      (statusDecode Config.params.calMask (exampleResponse 0xF7#8).b0).cal = false := by decide

theorem witness_CalibratedReadWritesTheResult :
    (xportDoes (.okBuf (exampleResponse 0x88#8)) (waiting .readWr)).turns = .xport :: [] ∧
      (xportDoes (.okBuf (exampleResponse 0x88#8)) (waiting .readWr)).xportQ =
        .okBuf (exampleResponse 0x88#8) :: [] ∧
      (xportDoes (.okBuf (exampleResponse 0x88#8)) (waiting .readWr)).fsm = .readWr ∧
      (xportDoes (.okBuf (exampleResponse 0x88#8)) (waiting .readWr)).outstanding =
        some (.writeRead 0x38#7 ⟨0xAC#8, 0xFF#8, 0x00#8⟩ 7) ∧
      (statusDecode Config.params.calMask (exampleResponse 0x88#8).b0).cal = true := by decide

theorem witness_ReadTransportFailure :
    (xportDoes (.err { tag := 1 }) (waiting .readWr)).turns = .xport :: [] ∧
      (xportDoes (.err { tag := 1 }) (waiting .readWr)).xportQ = .err { tag := 1 } :: [] ∧
      (xportDoes (.err { tag := 1 }) (waiting .readWr)).fsm = .readWr ∧
      (xportDoes (.err { tag := 1 }) (waiting .readWr)).outstanding =
        some (.writeRead 0x38#7 ⟨0xAC#8, 0xFF#8, 0x00#8⟩ 7) := by decide

/-- Nothing outstanding; a delay; a write answered with bytes; a read answered without; the timer in INIT_W1. -/
theorem witness_UnexpectedCompletionsHaveNoMove :
    ((xportDoes .ok ready).turns = .xport :: [] ∧ (xportDoes .ok ready).xportQ = .ok :: [] ∧
      (xportDoes .ok ready).outstanding = none) ∧
    (xportDoes .ok (waiting .initD1)).outstanding = some (.delay 300) ∧
    ((xportDoes (.okBuf (exampleResponse 0#8)) (waiting .initW1)).xportQ =
        .okBuf (exampleResponse 0#8) :: [] ∧
      (xportDoes (.okBuf (exampleResponse 0#8)) (waiting .initW1)).outstanding =
        some (.write 0x38#7 ⟨0xA8#8, 0x00#8, 0x00#8⟩)) ∧
    (xportDoes .ok (waiting .readWr)).outstanding =
      some (.writeRead 0x38#7 ⟨0xAC#8, 0xFF#8, 0x00#8⟩ 7) ∧
    ((timerDoes (waiting .initW1)).turns = .timer :: [] ∧
      ∀ ms, (timerDoes (waiting .initW1)).outstanding ≠ some (.delay ms)) :=
  ⟨by decide, by decide, by decide, by decide, rfl, fun _ h => by injection h with h; cases h⟩

/-- An operation with all it needs: the host's write, the turns, the transport's replies. -/
def planned (s : State) (v : Word32) (turns : List Agent) (replies : List (XportReply XportError)) : State :=
  { s with hostQ := [.write 0 v], turns := turns, xportQ := replies }

theorem witness_OperationsRunTheirTranscripts :
    ((planned State.reset 0#32 [.host, .xport, .timer, .xport, .timer] [.ok, .ok]).outstanding = none ∧
      (planned State.reset 0#32 [.host, .xport, .timer, .xport, .timer] [.ok, .ok]).hostQ =
        .write 0 0#32 :: [] ∧
      (planned State.reset 0#32 [.host, .xport, .timer, .xport, .timer] [.ok, .ok]).fsm = .uninit ∧
      (0#32 : Word32).extractLsb' 0 2 = 0b00#2 ∧
      (planned State.reset 0#32 [.host, .xport, .timer, .xport, .timer] [.ok, .ok]).turns =
        [.host, .xport, .timer, .xport, .timer] ++ [] ∧
      (planned State.reset 0#32 [.host, .xport, .timer, .xport, .timer] [.ok, .ok]).xportQ =
        .ok :: .ok :: []) ∧
    ((planned ready 1#32 [.host, .xport, .timer] [.ok]).outstanding = none ∧
      (planned ready 1#32 [.host, .xport, .timer] [.ok]).hostQ = .write 0 1#32 :: [] ∧
      (planned ready 1#32 [.host, .xport, .timer] [.ok]).fsm = .ready ∧
      (1#32 : Word32).extractLsb' 0 2 = 0b01#2 ∧
      (planned ready 1#32 [.host, .xport, .timer] [.ok]).turns = [.host, .xport, .timer] ++ [] ∧
      (planned ready 1#32 [.host, .xport, .timer] [.ok]).xportQ = .ok :: []) ∧
    ((planned ready 2#32 [.host, .xport] [.okBuf (exampleResponse 8#8)]).outstanding = none ∧
      (planned ready 2#32 [.host, .xport] [.okBuf (exampleResponse 8#8)]).hostQ =
        .write 0 2#32 :: [] ∧
      (planned ready 2#32 [.host, .xport] [.okBuf (exampleResponse 8#8)]).fsm = .ready ∧
      (2#32 : Word32).extractLsb' 0 2 = 0b10#2 ∧
      (planned ready 2#32 [.host, .xport] [.okBuf (exampleResponse 8#8)]).turns =
        [.host, .xport] ++ [] ∧
      (planned ready 2#32 [.host, .xport] [.okBuf (exampleResponse 8#8)]).xportQ =
        .okBuf (exampleResponse 8#8) :: [] ∧
      (statusDecode Config.params.calMask (exampleResponse 8#8).b0).cal = true) := by decide

/-- A transport request and a delay. -/
theorem witness_TheOutstandingRequestCanComplete :
    (oneRequest Config.params (waiting .readWr) ∧ isBusy (waiting .readWr).fsm = true ∧
      replyFits (E := XportError) (measureReq Config.params) (.okBuf (exampleResponse 0x08#8)) = true) ∧
    (oneRequest Config.params (waiting .initD2) ∧ isBusy (waiting .initD2).fsm = true ∧
      (waiting .initD2).outstanding = some (.delay 300)) :=
  ⟨⟨rfl, rfl, rfl⟩, rfl, rfl, rfl⟩

theorem witness_CompletionsOnlyAdvance :
    (∃ t, xportDone Config.params .ok (waiting .initW1) = .next t) ∧
      (∃ t, timerDone Config.params (waiting .resetD) = .next t) :=
  ⟨⟨_, rfl⟩, ⟨_, rfl⟩⟩

theorem witness_CalMaskPicksOneBit :
    Config.params.wf = true ∧ ({ Config.params with calMask := 0x80#8 } : Params).wf = true := by decide

/-- V-D-2 and V-D-7: equal flags; and a case on each side. -/
theorem witness_VerdictRestsOnTheCalibrationFlag :
    (statusDecode 0x08#8 (exampleResponse 0x08#8).b0).cal =
        (statusDecode 0x08#8 (exampleResponse 0xFF#8).b0).cal ∧
      (statusDecode 0x08#8 (exampleResponse 0x80#8).b0).cal =
        (statusDecode 0x08#8 (exampleResponse 0xF7#8).b0).cal := by decide

/-- The bounds of both clauses. -/
theorem witness_RawCountsRoundTrip : 1048575 < 2 ^ 20 ∧ 2 ^ 20 ≤ 1048576 := by decide

/-- The last exact product (V-C-10). -/
theorem witness_PercentIsExactUpToTheBound : (671088#20 : RawCount).toNat ≤ 671088 := by decide

theorem witness_ConversionsAreMonotone :
    (0xA3D70#20 : RawCount).toNat ≤ (0xA3D71#20 : RawCount).toNat := by decide

theorem witness_OnlyACalibratedReadShowsAResult :
    ∃ t, stepOver Config.params (xportDoes (.okBuf (exampleResponse 0x08#8)) (waiting .readWr)) = .next t ∧
      (xportDoes (.okBuf (exampleResponse 0x08#8)) (waiting .readWr)).resValid = false ∧
      t.resValid = true := ⟨_, rfl, rfl, rfl⟩

theorem witness_DataRegistersChangeOnlyInRead :
    ∃ t, stepOver Config.params (xportDoes (.okBuf (exampleResponse 0x08#8)) (waiting .readWr)) = .next t ∧
      (∀ ts, (xportDoes (.okBuf (exampleResponse 0x08#8)) (waiting .readWr)).turns ≠ .platform :: ts) ∧
      t.rbuf ≠ (waiting .readWr).rbuf ∧ t.humRaw ≠ (waiting .readWr).humRaw ∧
      t.tempRaw ≠ (waiting .readWr).tempRaw :=
  ⟨_, rfl, (fun _ h => by injection h with h; cases h), by decide, by decide, by decide⟩

theorem witness_OnlyAFinishedInitGivesTrust :
    ∃ t, stepOver Config.params (timerDoes (waiting .initD2)) = .next t ∧
      (timerDoes (waiting .initD2)).needsInit = true ∧ t.needsInit = false := ⟨_, rfl, rfl, rfl⟩

/-- A host read of STAT, and an ABORT, in READY. -/
theorem witness_ResponsesPersistUntilARequest :
    (∃ t, stepOver Config.params (hostDoes (.read 2) measured) = .next t) ∧
      (∃ t, stepOver Config.params (hostDoes (.write 1 0#32) measured) = .next t) ∧
      isBusy measured.fsm = false ∧ measured.rspValid = true ∧
      (∀ ts, (hostDoes (.write 1 0#32) measured).turns ≠ .platform :: ts) ∧
      (∀ ts v q, ¬ ((hostDoes (.write 1 0#32) measured).turns = .host :: ts ∧
        (hostDoes (.write 1 0#32) measured).hostQ = .write 0 v :: q)) :=
  ⟨⟨_, rfl⟩, ⟨_, rfl⟩, rfl, rfl, (fun _ h => by injection h with h; cases h),
    (fun _ _ _ h => by injection h.2 with h; injection h with h; cases h)⟩

/-- In READY with a result shown, a new READ accepted; and an INIT that ends in TRANSPORT. -/
theorem witness_StepKeepsTheBlockInvariant :
    (BlockInv Config.params (hostDoes (.write 0 2#32) measured) ∧
      ∃ t, step (hostDoes (.write 0 2#32) measured) = .next t) ∧
    (BlockInv Config.params (xportDoes (.err { tag := 1 }) (waiting .initW2)) ∧
      ∃ t, step (xportDoes (.err { tag := 1 }) (waiting .initW2)) = .next t) := by
  refine ⟨⟨?_, _, rfl⟩, ?_, _, rfl⟩ <;>
    · unfold BlockInv oneRequest quietWhileBusy errorHeldWithTransport responseCodeKnown
        resultFromOneReading trustOnlyAfterInit
      decide

/-- READ_WR with the MEASURE request issued and open. -/
theorem witness_StepKeepsTheWireInvariant :
    WireInv Config.params
        (xportDoes (.okBuf (exampleResponse 0x08#8))
          (opened (measureReq Config.params) { State.reset with fsm := .readWr })) ∧
      ∃ t, step (xportDoes (.okBuf (exampleResponse 0x08#8))
        (opened (measureReq Config.params) { State.reset with fsm := .readWr })) = .next t := by
  refine ⟨⟨?_, rfl⟩, _, rfl⟩
  intro r h
  have h : WireEntry.issued r ∈ [WireEntry.issued (measureReq Config.params)] := h
  have h : r = measureReq Config.params := by simpa using h
  subst h
  exact .inr (.inr (.inr (.inl rfl)))

/-- Two states that differ in the readings, the response and the ghost. -/
theorem witness_StepKeepsNoHistory :
    sameCourse (hostDoes (.write 0 2#32) measured)
        (hostDoes (.write 0 2#32) { ready with needsInit := true, rspCode := 0b010#3 }) ∧
      nextIsHostRead (hostDoes (.write 0 2#32) measured) = false := by
  refine ⟨?_, rfl⟩
  unfold sameCourse
  decide

end Sys2Proof.Tests
end

/-! # The scope of 00_scope.md: transport errors are opaque, and the host's turn runs the write it decodes

Errors are opaque (R12, R39) because every operation of the block commutes with `renameErrors f`: the shared updates
first, then the instructions, the completions, the host reads, and last the turns of R253. -/

namespace Sys2Proof.Machine

open Sys2Proof

/-! ### Renaming errors commutes with the shared updates

A field without errors is the same field after `renameErrors f`, by definition: so what is known of it in `s` is
handed on as it stands to a lemma about `renameErrors f s`. -/

section Renaming

variable {E E' : Type} (f : E → E') (p : Params) (s : State.Over E)

@[simp] theorem renameErrors_fsm : (renameErrors f s).fsm = s.fsm := rfl
@[simp] theorem renameErrors_humRaw : (renameErrors f s).humRaw = s.humRaw := rfl
@[simp] theorem renameErrors_tempRaw : (renameErrors f s).tempRaw = s.tempRaw := rfl
@[simp] theorem renameErrors_resValid : (renameErrors f s).resValid = s.resValid := rfl
@[simp] theorem renameErrors_rspCode : (renameErrors f s).rspCode = s.rspCode := rfl
@[simp] theorem renameErrors_rspErr : (renameErrors f s).rspErr = s.rspErr.map f := rfl
@[simp] theorem renameErrors_outstanding : (renameErrors f s).outstanding = s.outstanding := rfl
@[simp] theorem renameErrors_xportQ :
    (renameErrors f s).xportQ = s.xportQ.map (renameReply f) := rfl

theorem renameErrors_record (e : WireEntry E) :
    renameErrors f (record e s) = record (renameEntry f e) (renameErrors f s) := by
  simp [renameErrors, record]

theorem renameErrors_opened (r : Request) :
    renameErrors f (opened r s) = opened r (renameErrors f s) :=
  renameErrors_record f _ _

theorem renameErrors_completed (e : WireEntry E) :
    renameErrors f (completed e s) = completed (renameEntry f e) (renameErrors f s) :=
  renameErrors_record f _ _

/-- A withdrawal looks at the outstanding request and the draw counter only (R152). -/
theorem renameErrors_withdraw : renameErrors f (withdraw s) = withdraw (renameErrors f s) := by
  rcases ho : s.outstanding with _ | ⟨a, fr⟩ | ⟨a, fr, n⟩ | ms <;>
    simp only [withdraw, renameErrors_outstanding, ho]
  case some.delay => exact renameErrors_completed f s _
  case some.write | some.writeRead =>
    exact congrArg (fun t : State.Over E' => { t with draws := s.draws + 1 })
      (renameErrors_completed f s _)

theorem renameErrors_blockReset : renameErrors f (blockReset s) = blockReset (renameErrors f s) := by
  unfold blockReset
  rw [← renameErrors_withdraw]
  rfl

/-! ### … with issuing and with the host requests -/

theorem issue_renameErrors (r : Request) :
    issue r (renameErrors f s) = mapNext (renameErrors f) (issue r s) := by
  by_cases ho : s.outstanding = none
  · rw [issue_of_none ho, issue_of_none (s := renameErrors f s) ho, mapNext, renameErrors_opened]
  · rw [issue_of_some ho, issue_of_some (s := renameErrors f s) ho, mapNext]

theorem hostRequest_renameErrors {legal : Bool}
    {start : State.Over E → Host.Outcome (State.Over E) Fault Refusal}
    {start' : State.Over E' → Host.Outcome (State.Over E') Fault Refusal}
    (hstart : ∀ t, start' (renameErrors f t) = mapNext (renameErrors f) (start t)) :
    hostRequest legal start' (renameErrors f s) =
      mapNext (renameErrors f) (hostRequest legal start s) := by
  cases hb : isBusy s.fsm
  case true => rw [hostRequest_busy hb, hostRequest_busy (s := renameErrors f s) hb, mapNext]
  case false =>
    cases legal
    case true =>
      rw [hostRequest_legal hb, hostRequest_legal (s := renameErrors f s) hb]
      exact hstart (accept s)
    case false => rw [hostRequest_illegal hb, hostRequest_illegal (s := renameErrors f s) hb]; rfl

theorem renameErrors_abortWith (hasAbort : Bool) :
    renameErrors f (abortWith hasAbort s) = abortWith hasAbort (renameErrors f s) := by
  cases hasAbort
  case false => rw [abortWith_absent, abortWith_absent]
  case true =>
    cases hb : isBusy s.fsm
    case false => rw [abortWith_idle hb, abortWith_idle (s := renameErrors f s) hb]
    case true =>
      rw [abortWith_busy hb, abortWith_busy (s := renameErrors f s) hb, ← renameErrors_withdraw]
      rfl

theorem execOver_renameErrors (i : Instr) :
    execOver p i (renameErrors f s) = mapNext (renameErrors f) (execOver p i s) := by
  cases i <;> simp only [execOver]
  case init =>
    unfold requestInit
    exact hostRequest_renameErrors f s fun t =>
      issue_renameErrors f { t with needsInit := true, fsm := .initW1 } _
  case reset =>
    unfold requestReset
    exact hostRequest_renameErrors f s fun t =>
      issue_renameErrors f { t with needsInit := true, fsm := .resetW } _
  case read =>
    unfold requestRead
    exact hostRequest_renameErrors f s fun t => issue_renameErrors f { t with fsm := .readWr } _
  case reservedOp =>
    unfold requestReserved
    exact hostRequest_renameErrors f s fun _ => rfl
  case abort => exact congrArg Host.Outcome.next (renameErrors_abortWith f s p.hasAbort).symm
  case trigger | calibrate | softreset | measure => exact issue_renameErrors f s _

/-! ### … with the completions -/

theorem replyFits_renameReply (r : Request) (c : XportReply E) :
    replyFits r (renameReply f c) = replyFits r c := by
  cases r <;> cases c <;> rfl

theorem renameErrors_readDone (calMask : Byte) (b : Response) :
    renameErrors f (readDone calMask b s) = readDone calMask b (renameErrors f s) := by
  cases hc : (statusDecode calMask b.b0).cal <;> simp only [readDone, hc] <;> rfl

theorem xportStep_renameErrors (c : XportReply E) :
    xportStep p (renameReply f c) (renameErrors f s) =
      mapNext (renameErrors f) (xportStep p c s) := by
  cases hf : s.fsm <;> cases c <;> simp only [xportStep, renameReply, renameErrors_fsm, hf]
  case initW1.ok => exact issue_renameErrors f { s with fsm := .initD1 } _
  case initW2.ok => exact issue_renameErrors f { s with fsm := .initD2 } _
  case resetW.ok => exact issue_renameErrors f { s with fsm := .resetD } _
  case readWr.okBuf b => exact congrArg Host.Outcome.next (renameErrors_readDone f s _ b).symm
  all_goals rfl

theorem xportDone_renameErrors (c : XportReply E) :
    xportDone p (renameReply f c) (renameErrors f s) =
      mapNext (renameErrors f) (xportDone p c s) := by
  rcases ho : s.outstanding with _ | r
  case none => simp [xportDone, ho, mapNext]
  case some =>
    cases hr : replyFits r c
    case false => simp [xportDone, ho, replyFits_renameReply, hr, mapNext]
    case true =>
      rw [xportDone_of_fits ho hr,
        xportDone_of_fits (s := renameErrors f s) ho ((replyFits_renameReply f r c).trans hr),
        ← xportStep_renameErrors, renameErrors_completed, renameEntry]

theorem timerStep_renameErrors :
    timerStep p (renameErrors f s) = mapNext (renameErrors f) (timerStep p s) := by
  cases hf : s.fsm <;> simp only [timerStep, renameErrors_fsm, hf]
  case initD1 => exact issue_renameErrors f { s with fsm := .initW2 } _
  all_goals rfl

theorem timerDone_renameErrors :
    timerDone p (renameErrors f s) = mapNext (renameErrors f) (timerDone p s) := by
  rcases ho : s.outstanding with _ | ⟨a, fr⟩ | ⟨a, fr, n⟩ | ms
  case some.delay =>
    rw [timerDone_of_delay ho, timerDone_of_delay (s := renameErrors f s) ho,
      ← timerStep_renameErrors, renameErrors_completed, renameEntry]
  all_goals simp [timerDone, ho, mapNext]

/-! ### … with the host reads -/

/-- Only a read of ERR hands out an error, and it is the one held (R39, R43). -/
theorem readRegister_renameErrors (idx : Nat) :
    readRegister idx (renameErrors f s) = (readRegister idx s).map (renameRead f) := by
  unfold readRegister
  split
  case h_1 => rfl
  case h_2 | h_3 => cases hv : s.resValid <;> simp [resultRead, hv, Except.map, renameRead]
  case h_4 =>
    by_cases hc : s.rspCode = rspBits .transport <;> cases he : s.rspErr <;>
      simp [errorRead, hc, he, Except.map, renameRead]
  case h_5 => rfl

theorem hostRead_renameErrors (idx : Nat) :
    hostRead idx (renameErrors f s) = mapNext (renameErrors f) (hostRead idx s) := by
  unfold hostRead
  rw [readRegister_renameErrors]
  cases readRegister idx s <;> rfl

/-! ### … with the turns of R253 -/

theorem hostTurn_renameErrors :
    hostTurn p (execOver p) (renameErrors f s) =
      mapNext (renameErrors f) (hostTurn p (execOver p) s) := by
  rcases hq : s.hostQ with _ | ⟨⟨idx, v⟩ | idx, q⟩
  case nil => rw [hostTurn_nothing hq, hostTurn_nothing (s := renameErrors f s) hq, mapNext]
  case cons.read =>
    rw [hostTurn_read hq, hostTurn_read (s := renameErrors f s) hq, ← hostRead_renameErrors]; rfl
  case cons.write =>
    have hq' : (renameErrors f s).hostQ = .write idx v :: q := hq
    by_cases hb : idx = 0 ∧ isBusy s.fsm = true
    · rw [hostTurn_held hq hb, hostTurn_held hq' hb, mapNext]
    · cases hd : decode p (.hostWrite idx v)
      case error => rw [hostTurn_ignored hq hb hd, hostTurn_ignored hq' hb hd]; rfl
      case ok =>
        rw [hostTurn_runs hq hb hd, hostTurn_runs hq' hb hd, ← execOver_renameErrors]; rfl

theorem xportTurn_renameErrors :
    xportTurn p (renameErrors f s) = mapNext (renameErrors f) (xportTurn p s) := by
  rcases hq : s.xportQ with _ | ⟨c, q⟩
  case nil =>
    have hq' : (renameErrors f s).xportQ = [] := by simp [hq]
    rw [xportTurn_nothing hq, xportTurn_nothing hq', mapNext]
  case cons =>
    have hq' : (renameErrors f s).xportQ = renameReply f c :: q.map (renameReply f) := by simp [hq]
    rw [xportTurn_completes hq, xportTurn_completes hq', ← xportDone_renameErrors]; rfl

theorem turnOf_renameErrors (a : Agent) :
    turnOf p (execOver p) a (renameErrors f s) =
      mapNext (renameErrors f) (turnOf p (execOver p) a s) := by
  cases a
  case host => exact hostTurn_renameErrors f p s
  case xport => exact xportTurn_renameErrors f p s
  case timer => exact timerDone_renameErrors f p s
  case platform => exact congrArg Host.Outcome.next (renameErrors_blockReset f s).symm

theorem stepOver_renameErrors :
    stepOver p (renameErrors f s) = mapNext (renameErrors f) (stepOver p s) := by
  rcases ht : s.turns with _ | ⟨a, ts⟩
  case nil => rw [stepOver_nil ht, stepOver_nil (s := renameErrors f s) ht, mapNext]
  case cons =>
    rw [stepOver_cons ht, stepOver_cons (s := renameErrors f s) ht, ← turnOf_renameErrors]; rfl

end Renaming

/-- Settles O56: every turn of R253 commutes with renaming the errors. -/
theorem stepNeverInspectsErrors : Obligations.StepNeverInspectsErrors :=
  fun _ _ f p s => stepOver_renameErrors f p s

/-! ### The host's turn -/

section HostWrite

variable {E : Type} {p : Params}

/-- The host's turn with a command write at the head of its queue runs the instruction (R21, R76, R253). -/
theorem stepOver_runs {s : State.Over E} {ts : List Agent} {idx : Nat} {v : Word32} {q : List HostAct} {i : Instr}
    (ht : s.turns = .host :: ts) (hq : s.hostQ = .write idx v :: q)
    (hb : ¬ (idx = 0 ∧ isBusy s.fsm = true)) (hd : decode p (.hostWrite idx v) = .ok i) :
    stepOver p s = execOver p i { s with turns := ts, hostQ := q } := by
  rw [stepOver_cons ht, turnOf]
  exact hostTurn_runs (s := { s with turns := ts }) hq hb hd

theorem execOver_abort_absent (h : p.hasAbort = false) (s : State.Over E) :
    execOver p .abort s = .next s := by
  rw [execOver, writeAbort, h, abortWith_absent]

end HostWrite

/-- Settles O15: `step` and `exec` are `stepOver` and `execOver` at `Config.params`. -/
theorem stepRunsTheDecodedWrite : Obligations.StepRunsTheDecodedWrite :=
  fun _ _ _ _ _ _ ht hq hb hd => stepOver_runs ht hq hb hd

/-- Settles O59: the write to register 1 decodes to ABORT, never held, which does nothing without the option. -/
theorem withoutAbortTheWriteIsIgnored : Obligations.WithoutAbortTheWriteIsIgnored := by
  intro E p s ts v q hp
  refine ⟨execOver_abort_absent hp s, fun ht hq => ?_⟩
  calc stepOver p s
      = execOver p .abort { s with turns := ts, hostQ := q } := stepOver_runs ht hq (by simp) rfl
    _ = .next { s with turns := ts, hostQ := q } := execOver_abort_absent hp _

end Sys2Proof.Machine

/-! # The state of 10_state.md: the block's invariant, what a step may change, two runs compared, and the registers -/

namespace Sys2Proof.Machine

open Sys2Proof

/-! ### The block's invariant

A step leaves one of two shapes: nothing is shown (a request has been taken, or a completion has moved the operation
on), or a response is shown in an idle state. Each shape gives the invariant once. -/

section Invariant

variable {E : Type} {p : Params} {s t : State.Over E}

theorem requestOf_idle {f : Fsm} (h : isBusy f = false) : requestOf p f = none := by
  cases f
  case uninit | ready => rfl
  all_goals cases h

theorem rspBits_toNat_le (c : RspCode) : (rspBits c).toNat ≤ 4 := by
  cases c <;> decide

theorem rspBits_eq_transport {c : RspCode} : rspBits c = rspBits .transport ↔ c = .transport := by
  cases c <;> decide

theorem cancelledTo_idle (f : Fsm) : isBusy (cancelledTo f) = false := by
  cases f <;> rfl

theorem blockInv_of_noResponse (ho : oneRequest p s) (hv : s.rspValid = false)
    (hr : s.resValid = false) (he : s.rspErr = none) (ht : trustOnlyAfterInit s) : BlockInv p s := by
  refine ⟨ho, fun _ => ⟨hv, hr⟩, ?_, ?_, ?_, ht⟩
  · simp [errorHeldWithTransport, hv, he]
  · simp [responseCodeKnown, hv]
  · simp [resultFromOneReading, hr]

theorem blockInv_of_response {c : RspCode} (hf : isBusy s.fsm = false) (ho : s.outstanding = none)
    (hv : s.rspValid = true) (hc : s.rspCode = rspBits c)
    (he : s.rspErr.isSome = true ↔ c = .transport) (hr : resultFromOneReading p s)
    (ht : trustOnlyAfterInit s) : BlockInv p s := by
  refine ⟨ho.trans (requestOf_idle hf).symm, fun hb => ?_, ?_, fun _ => ?_, hr, ht⟩
  · rw [hf] at hb; cases hb
  · rw [errorHeldWithTransport, he, hc, rspBits_eq_transport]; simp [hv]
  · rw [hc]; exact rspBits_toNat_le c

theorem BlockInv.outstanding_idle (hi : BlockInv p s) (hf : isBusy s.fsm = false) :
    s.outstanding = none :=
  hi.1.trans (requestOf_idle hf)

/-- While busy nothing is shown, so no error is held either. -/
theorem BlockInv.silent (hi : BlockInv p s) (hb : isBusy s.fsm = true) :
    s.rspValid = false ∧ s.resValid = false ∧ s.rspErr = none := by
  obtain ⟨_, hquiet, herr, _, _, _⟩ := hi
  obtain ⟨hv, hr⟩ := hquiet hb
  refine ⟨hv, hr, ?_⟩
  simpa [errorHeldWithTransport, hv] using herr

theorem resultFromOneReading_of_none (h : s.resValid = false) : resultFromOneReading p s := by
  simp [resultFromOneReading, h]

/-! Requests and ABORT. -/

theorem blockInv_illegal (hi : BlockInv p s) (hf : isBusy s.fsm = false) : BlockInv p (illegal s) := by
  refine blockInv_of_response (c := .illegal) hf (hi.outstanding_idle hf) rfl rfl (by simp)
    (resultFromOneReading_of_none rfl) ?_
  obtain ⟨_, _, _, _, _, htrust⟩ := hi
  exact htrust

/-- An accepted request shows nothing and has issued the request of its new position. -/
theorem blockInv_started {f : Fsm} {r : Request} {g : Bool} (hr : requestOf p f = some r)
    (ht : g = false → f = .ready ∨ f = .readWr) :
    BlockInv p (opened r { accept s with needsInit := g, fsm := f }) :=
  blockInv_of_noResponse hr.symm rfl rfl rfl ht

theorem blockInv_aborted (hi : BlockInv p s) (hb : isBusy s.fsm = true) :
    BlockInv p (errorEntry .aborted (cancelledTo s.fsm) { withdraw s with needsInit := true }) := by
  obtain ⟨_, hr, he⟩ := hi.silent hb
  exact blockInv_of_response (c := .aborted) (cancelledTo_idle _) (by simp) rfl rfl (by simp [he])
    (resultFromOneReading_of_none (by simp [hr])) (by simp [trustOnlyAfterInit])

theorem blockInv_execOver {idx : Nat} {v : Word32} {i : Instr} (hi : BlockInv p s)
    (hd : decode p (.hostWrite idx v) = .ok i) (h : execOver p i s = .next t) : BlockInv p t := by
  rcases execOver_of_hostWrite hd h with rfl | ⟨hf, rfl⟩ | ⟨_, _, rfl⟩ | ⟨_, _, rfl⟩ | ⟨_, _, rfl⟩ |
    ⟨_, hb, rfl⟩
  · exact hi
  · exact blockInv_illegal hi hf
  · exact blockInv_started rfl (by simp)
  · exact blockInv_started rfl (by simp)
  · exact blockInv_started (s := s) (g := s.needsInit) rfl (by simp)
  · exact blockInv_aborted hi hb

/-! Completions. Each finds the block busy, so silent. -/

/-- A completion with a next request: the operation goes on, in a position without trust. -/
theorem blockInv_goesOn {e : WireEntry E} {f : Fsm} {r : Request} (hi : BlockInv p s)
    (hb : isBusy s.fsm = true) (hf : s.fsm ≠ .readWr) (hr : requestOf p f = some r) :
    BlockInv p (opened r { completed e s with fsm := f }) := by
  obtain ⟨hv, hres, herr⟩ := hi.silent hb
  obtain ⟨_, _, _, _, _, htrust⟩ := hi
  refine blockInv_of_noResponse hr.symm hv hres herr fun hn => ?_
  rcases htrust hn with h | h
  · rw [h] at hb; cases hb
  · exact absurd h hf

theorem blockInv_initFailed {w : WireEntry E} {e : E} (hi : BlockInv p s) (hb : isBusy s.fsm = true) :
    BlockInv p (initFailed e (completed w s)) := by
  obtain ⟨_, hr, _⟩ := hi.silent hb
  exact blockInv_of_response (c := .transport) rfl rfl rfl rfl (by simp [initFailed])
    (resultFromOneReading_of_none hr) (by simp [trustOnlyAfterInit, initFailed])

theorem blockInv_transportError {w : WireEntry E} {e : E} (hi : BlockInv p s)
    (hb : isBusy s.fsm = true) : BlockInv p (transportError e .ready (completed w s)) := by
  obtain ⟨_, hr, _⟩ := hi.silent hb
  exact blockInv_of_response (c := .transport) rfl rfl rfl rfl (by simp)
    (resultFromOneReading_of_none hr) (fun _ => .inl rfl)

theorem blockInv_readDone {w : WireEntry E} {b : Response} (hi : BlockInv p s)
    (hb : isBusy s.fsm = true) : BlockInv p (readDone p.calMask b (completed w s)) := by
  obtain ⟨_, hr, he⟩ := hi.silent hb
  rcases readDone_cases p.calMask b (completed w s) with ⟨hc, hd⟩ | ⟨_, hd⟩ <;> rw [hd]
  · exact blockInv_of_response (c := .ok) rfl rfl rfl rfl (by simp [he])
      (fun _ => ⟨rfl, rfl, rfl, rfl, rfl, hc⟩) (fun _ => .inl rfl)
  · exact blockInv_of_response (c := .uncalibrated) rfl rfl rfl rfl (by simp [he])
      (resultFromOneReading_of_none hr) (fun _ => .inl rfl)

/-- INIT and RESET end OK in READY, whatever becomes of the ghost. -/
theorem blockInv_endedOk {w : WireEntry E} {g : Bool} (hi : BlockInv p s) (hb : isBusy s.fsm = true) :
    BlockInv p (respond .ok { completed w s with fsm := .ready, needsInit := g }) := by
  obtain ⟨_, hr, he⟩ := hi.silent hb
  exact blockInv_of_response (c := .ok) rfl rfl rfl rfl (by simp [he])
    (resultFromOneReading_of_none hr) (fun _ => .inl rfl)

theorem blockInv_xportDone {c : XportReply E} (hi : BlockInv p s) (h : xportDone p c s = .next t) :
    BlockInv p t := by
  obtain ⟨_, _, _, h⟩ := xportDone_next h
  rcases xportStep_next h with ⟨hf, _, _, rfl⟩ | ⟨hf, _, _, rfl⟩ | ⟨hf, _, _, rfl⟩ |
    ⟨e, hf, _, rfl⟩ | ⟨e, hf, _, rfl⟩ | ⟨b, hf, _, rfl⟩ <;> rw [completed_fsm] at hf
  · exact blockInv_goesOn hi (by simp [hf, isBusy]) (by simp [hf]) rfl
  · exact blockInv_goesOn hi (by simp [hf, isBusy]) (by simp [hf]) rfl
  · exact blockInv_goesOn hi (by simp [hf, isBusy]) (by simp [hf]) rfl
  · exact blockInv_initFailed hi (by rcases hf with hf | hf <;> simp [hf, isBusy])
  · exact blockInv_transportError hi (by rcases hf with hf | hf <;> simp [hf, isBusy])
  · exact blockInv_readDone hi (by simp [hf, isBusy])

theorem blockInv_timerDone (hi : BlockInv p s) (h : timerDone p s = .next t) : BlockInv p t := by
  obtain ⟨_, _, h⟩ := timerDone_next h
  rcases timerStep_next h with ⟨hf, _, rfl⟩ | ⟨hf, rfl⟩ | ⟨hf, rfl⟩ <;> rw [completed_fsm] at hf
  · exact blockInv_goesOn hi (by simp [hf, isBusy]) (by simp [hf]) rfl
  · exact blockInv_endedOk hi (by simp [hf, isBusy])
  · exact blockInv_endedOk (g := s.needsInit) hi (by simp [hf, isBusy])

theorem blockInv_blockReset (s : State.Over E) : BlockInv p (blockReset s) :=
  blockInv_of_noResponse (by simp [oneRequest, requestOf]) rfl rfl rfl (by simp [trustOnlyAfterInit])

theorem blockInv_stepOver (hi : BlockInv p s) (h : stepOver p s = .next t) : BlockInv p t := by
  rcases stepOver_events h with ⟨ts, q, d, rfl⟩ | ⟨ts, q, i, _, ⟨idx, v, _, _, hd⟩, h⟩ |
    ⟨ts, c, q, _, _, h⟩ | ⟨ts, _, h⟩ | ⟨ts, _, rfl⟩
  · exact hi
  · exact blockInv_execOver (s := { s with turns := ts, hostQ := q }) hi hd h
  · exact blockInv_xportDone (s := { s with turns := ts, xportQ := q }) hi h
  · exact blockInv_timerDone (s := { s with turns := ts }) hi h
  · exact blockInv_blockReset _

theorem blockInv_resetOf (E : Type) (p : Params) : BlockInv p (State.resetOf E) :=
  blockInv_of_noResponse rfl rfl rfl rfl (by simp [trustOnlyAfterInit, State.resetOf])

end Invariant

/-- Settles O53, by the events of a step; `step` is `stepOver Config.params`. -/
theorem stepKeepsTheBlockInvariant : Obligations.StepKeepsTheBlockInvariant :=
  ⟨fun _ _ hi h => blockInv_stepOver hi h, fun _ _ _ _ hi h => blockInv_stepOver hi h⟩

/-- Settles O52: after block reset nothing is shown. -/
theorem resetMeetsTheBlockInvariant : Obligations.ResetMeetsTheBlockInvariant :=
  ⟨blockInv_resetOf XportError Config.params, blockInv_resetOf⟩

/-! ### Completions: the outstanding one has a move, and every move leads on (R40, R47) -/

section Completion

variable {E : Type} {p : Params} {s t : State.Over E}

theorem requestOf_busy (p : Params) {f : Fsm} (hb : isBusy f = true) :
    ∃ r, requestOf p f = some r := by
  cases f
  case uninit | ready => cases hb
  all_goals exact ⟨_, rfl⟩

theorem remaining_idle {f : Fsm} (h : isBusy f = false) : remaining f = 0 := by
  cases f
  case uninit | ready => rfl
  all_goals cases h

@[simp] theorem readDone_fsm (mask : Byte) (b : Response) (s : State.Over E) :
    (readDone mask b s).fsm = .ready := by
  rcases readDone_cases mask b s with ⟨_, h⟩ | ⟨_, h⟩ <;> rw [h] <;> rfl

@[simp] theorem readDone_needsInit (mask : Byte) (b : Response) (s : State.Over E) :
    (readDone mask b s).needsInit = s.needsInit := by
  rcases readDone_cases mask b s with ⟨_, h⟩ | ⟨_, h⟩ <;> rw [h] <;> rfl

@[simp] theorem readDone_rbuf (mask : Byte) (b : Response) (s : State.Over E) :
    (readDone mask b s).rbuf = b := by
  rcases readDone_cases mask b s with ⟨_, h⟩ | ⟨_, h⟩ <;> rw [h] <;> rfl

/-- The request a position names is of the kind its row of R156 takes. -/
theorem xportDone_moves {c : XportReply E} {r : Request} (hi : oneRequest p s)
    (hr : s.outstanding = some r) (hfit : replyFits r c = true) : ∃ t, xportDone p c s = .next t := by
  have hreq : requestOf p s.fsm = some r := hi.symm.trans hr
  rw [xportDone_of_fits hr hfit]
  cases hf : s.fsm <;> rw [hf] at hreq <;> cases hreq
  case initD1 | initD2 | resetD => cases hfit
  case initW1 | initW2 | resetW =>
    cases c
    case okBuf => cases hfit
    case ok | err => exact ⟨_, by simp only [xportStep, completed_fsm, hf]; rfl⟩
  case readWr =>
    cases c
    case ok => cases hfit
    case okBuf | err => exact ⟨_, by simp only [xportStep, completed_fsm, hf]; rfl⟩

theorem timerDone_moves {ms : Nat} (hi : oneRequest p s) (hr : s.outstanding = some (.delay ms)) :
    ∃ t, timerDone p s = .next t := by
  have hreq : requestOf p s.fsm = some (.delay ms) := hi.symm.trans hr
  rw [timerDone_of_delay hr]
  cases hf : s.fsm <;> rw [hf] at hreq <;> cases hreq
  all_goals exact ⟨_, by simp only [timerStep, completed_fsm, hf]; rfl⟩

theorem xportDone_remaining {c : XportReply E} (h : xportDone p c s = .next t) :
    remaining t.fsm < remaining s.fsm := by
  obtain ⟨_, _, _, h⟩ := xportDone_next h
  rcases xportStep_next h with ⟨hf, _, _, rfl⟩ | ⟨hf, _, _, rfl⟩ | ⟨hf, _, _, rfl⟩ |
    ⟨e, hf | hf, _, rfl⟩ | ⟨e, hf | hf, _, rfl⟩ | ⟨b, hf, _, rfl⟩ <;>
    rw [completed_fsm] at hf <;> simp [hf, remaining, initFailed]

theorem timerDone_remaining (h : timerDone p s = .next t) : remaining t.fsm < remaining s.fsm := by
  obtain ⟨_, _, h⟩ := timerDone_next h
  rcases timerStep_next h with ⟨hf, _, rfl⟩ | ⟨hf, rfl⟩ | ⟨hf, rfl⟩ <;>
    rw [completed_fsm] at hf <;> simp [hf, remaining]

end Completion

/-- Settles O36: the position names the outstanding request, and has a row for each of its completions. -/
theorem theOutstandingRequestCanComplete : Obligations.TheOutstandingRequestCanComplete := by
  intro E p s hi hb
  obtain ⟨r, hr⟩ := requestOf_busy p hb
  have ho : s.outstanding = some r := hi.trans hr
  exact ⟨r, ho, fun _ hfit => xportDone_moves hi ho hfit,
    fun _ hms => timerDone_moves hi (hms ▸ ho)⟩

/-- Settles O37. -/
theorem completionsOnlyAdvance : Obligations.CompletionsOnlyAdvance :=
  fun _ _ _ _ => ⟨fun _ h => xportDone_remaining h, fun h => timerDone_remaining h⟩

/-! ### What a step may change: the reading, the ghost and a shown response (R33 to R37, R45) -/

section Change

variable {E : Type} {p : Params} {s t : State.Over E}

/-- From `s` to `t` the data registers stay, and no result comes to be shown. -/
def keepsReading (s t : State.Over E) : Prop :=
  t.rbuf = s.rbuf ∧ t.humRaw = s.humRaw ∧ t.tempRaw = s.tempRaw ∧
    (t.resValid = true → s.resValid = true)

theorem execOver_keepsReading {i : Instr} (h : execOver p i s = .next t) : keepsReading s t := by
  rcases execOver_next h with rfl | ⟨_, rfl⟩ | ⟨_, _, _, rfl⟩ | ⟨_, _, _, rfl⟩ | ⟨_, _, _, rfl⟩ |
    ⟨_, _, _, rfl⟩ | ⟨_, _, rfl⟩ | ⟨_, _, rfl⟩ | ⟨_, _, rfl⟩ | ⟨_, _, rfl⟩ <;> simp [keepsReading]

theorem timerDone_keepsReading (h : timerDone p s = .next t) : keepsReading s t := by
  obtain ⟨_, _, h⟩ := timerDone_next h
  rcases timerStep_next h with ⟨_, _, rfl⟩ | ⟨_, rfl⟩ | ⟨_, rfl⟩ <;> simp [keepsReading]

/-- A transport completion writes the data registers only as the end of a READ. -/
theorem xportDone_reading {c : XportReply E} (h : xportDone p c s = .next t) :
    (∃ b, s.fsm = .readWr ∧ c = .okBuf b ∧
      t = readDone p.calMask b (completed (.xportDone c) s)) ∨ keepsReading s t := by
  obtain ⟨_, _, _, h⟩ := xportDone_next h
  rcases xportStep_next h with ⟨_, _, _, rfl⟩ | ⟨_, _, _, rfl⟩ | ⟨_, _, _, rfl⟩ |
    ⟨e, _, _, rfl⟩ | ⟨e, _, _, rfl⟩ | ⟨b, hf, hc, rfl⟩
  case inr.inr.inr.inr.inr => exact .inl ⟨b, hf, hc, rfl⟩
  all_goals exact .inr (by simp [keepsReading, initFailed])

/-- The three things a step can do to the reading: reset it, take one, or keep it. -/
theorem stepOver_reading (h : stepOver p s = .next t) :
    (∃ ts, s.turns = .platform :: ts ∧ t.resValid = false) ∨
    (∃ ts b q, s.fsm = .readWr ∧ s.turns = .xport :: ts ∧ s.xportQ = .okBuf b :: q ∧
      t = readDone p.calMask b
        (completed (.xportDone (.okBuf b)) { s with turns := ts, xportQ := q })) ∨
    keepsReading s t := by
  rcases stepOver_events h with ⟨ts, q, d, rfl⟩ | ⟨ts, q, i, _, _, h⟩ | ⟨ts, c, q, ht, hq, h⟩ |
    ⟨ts, _, h⟩ | ⟨ts, ht, rfl⟩
  · exact .inr (.inr ⟨rfl, rfl, rfl, id⟩)
  · exact .inr (.inr (execOver_keepsReading (s := { s with turns := ts, hostQ := q }) h))
  · rcases xportDone_reading h with ⟨b, hf, rfl, rfl⟩ | hk
    · exact .inr (.inl ⟨ts, b, q, hf, ht, hq, rfl⟩)
    · exact .inr (.inr hk)
  · exact .inr (.inr (timerDone_keepsReading (s := { s with turns := ts }) h))
  · exact .inl ⟨ts, ht, rfl⟩

theorem execOver_needsInit {i : Instr} (h : execOver p i s = .next t) (hn : s.needsInit = true) :
    t.needsInit = true := by
  rcases execOver_next h with rfl | ⟨_, rfl⟩ | ⟨_, _, _, rfl⟩ | ⟨_, _, _, rfl⟩ | ⟨_, _, _, rfl⟩ |
    ⟨_, _, _, rfl⟩ | ⟨_, _, rfl⟩ | ⟨_, _, rfl⟩ | ⟨_, _, rfl⟩ | ⟨_, _, rfl⟩ <;> simp [hn]

theorem xportDone_needsInit {c : XportReply E} (h : xportDone p c s = .next t)
    (hn : s.needsInit = true) : t.needsInit = true := by
  obtain ⟨_, _, _, h⟩ := xportDone_next h
  rcases xportStep_next h with ⟨_, _, _, rfl⟩ | ⟨_, _, _, rfl⟩ | ⟨_, _, _, rfl⟩ |
    ⟨e, _, _, rfl⟩ | ⟨e, _, _, rfl⟩ | ⟨b, _, _, rfl⟩ <;> simp [hn, initFailed]

/-- The end of INIT's second delay is the one timer completion that gives trust (R126). -/
theorem timerDone_trust (h : timerDone p s = .next t) (hn : s.needsInit = true)
    (hn' : t.needsInit = false) :
    s.fsm = .initD2 ∧ t.fsm = .ready ∧ t.rspValid = true ∧ t.rspCode = rspBits .ok := by
  obtain ⟨_, _, h⟩ := timerDone_next h
  rcases timerStep_next h with ⟨_, _, rfl⟩ | ⟨hf, rfl⟩ | ⟨_, rfl⟩
  case inr.inl => exact ⟨hf, rfl, rfl, rfl⟩
  all_goals simp [hn] at hn'

/-- In an idle state no completion has a move: it would lead below 0 completions left. -/
theorem xportDone_idle {c : XportReply E} (hi : isBusy s.fsm = false) : xportDone p c s ≠ .next t := by
  intro h
  have := xportDone_remaining h
  rw [remaining_idle hi] at this
  exact Nat.not_lt_zero _ this

theorem timerDone_idle (hi : isBusy s.fsm = false) : timerDone p s ≠ .next t := by
  intro h
  have := timerDone_remaining h
  rw [remaining_idle hi] at this
  exact Nat.not_lt_zero _ this

theorem execOver_abort_idle (hi : isBusy s.fsm = false) : execOver p .abort s = .next s := by
  rw [execOver, writeAbort, abortWith_idle hi]

end Change

/-- Settles O48: the step shows a result, so it was the end of a READ, and a calibrated one. -/
theorem onlyACalibratedReadShowsAResult : Obligations.OnlyACalibratedReadShowsAResult := by
  intro E p s t h hs ht
  rcases stepOver_reading h with ⟨_, _, hr⟩ | ⟨ts, b, q, hf, hts, hq, rfl⟩ | ⟨_, _, _, hr⟩
  · rw [ht] at hr; cases hr
  · rcases readDone_cases p.calMask b
      (completed (.xportDone (.okBuf b)) { s with turns := ts, xportQ := q }) with ⟨hc, hd⟩ | ⟨_, hd⟩ <;>
      rw [hd] at ht ⊢
    · exact ⟨hf, ts, b, q, hts, hq, hc, rfl, rfl, rfl⟩
    · simp [hs] at ht
  · rw [hr ht] at hs; cases hs

/-- Settles O49: of the two ends of a READ that answer bytes only the calibrated one writes the counts. -/
theorem dataRegistersChangeOnlyInRead : Obligations.DataRegistersChangeOnlyInRead := by
  intro E p s t h hp
  rcases stepOver_reading h with ⟨ts, hts, _⟩ | ⟨ts, b, q, hf, hts, hq, rfl⟩ | ⟨hb, hh, htmp, _⟩
  · exact absurd hts (hp ts)
  · refine ⟨fun _ => ⟨hf, b, q, hq, readDone_rbuf _ _ _⟩, fun hne => ?_⟩
    rcases readDone_cases p.calMask b
      (completed (.xportDone (.okBuf b)) { s with turns := ts, xportQ := q }) with ⟨_, hd⟩ | ⟨_, hd⟩ <;>
      rw [hd] at hne ⊢
    · exact ⟨hf, rfl, rfl⟩
    · simp at hne
  · exact ⟨fun hne => absurd hb hne, fun hne => absurd ⟨hh, htmp⟩ (not_and_or.mpr hne)⟩

/-- Settles O50: every event but the timer's keeps `needs_init` true. -/
theorem onlyAFinishedInitGivesTrust : Obligations.OnlyAFinishedInitGivesTrust := by
  intro E p s t h hn hn'
  rcases stepOver_events h with ⟨ts, q, d, rfl⟩ | ⟨ts, q, i, _, _, h⟩ | ⟨ts, c, q, _, _, h⟩ |
    ⟨ts, ht, h⟩ | ⟨ts, _, rfl⟩
  · rw [hn] at hn'; cases hn'
  · rw [execOver_needsInit h hn] at hn'; cases hn'
  · rw [xportDone_needsInit h hn] at hn'; cases hn'
  · obtain ⟨hf, hready, hv, hc⟩ := timerDone_trust h hn hn'
    exact ⟨hf, ⟨ts, ht⟩, hready, hv, hc⟩
  · simp at hn'

/-- Settles O51: without a request the host's write can only be an ABORT, which does nothing here (R151), and no
completion has a move. -/
theorem responsesPersistUntilARequest : Obligations.ResponsesPersistUntilARequest := by
  intro E p s t h hi hv hp hw
  rcases stepOver_events h with ⟨ts, q, d, rfl⟩ | ⟨ts, q, i, ht, ⟨idx, v, hq, _, hd⟩, h⟩ |
    ⟨ts, c, q, _, _, h⟩ | ⟨ts, _, h⟩ | ⟨ts, ht, rfl⟩
  · exact ⟨hv, rfl, rfl, rfl, rfl⟩
  · rcases decode_hostWrite hd with ⟨rfl, _⟩ | ⟨_, rfl⟩
    · exact absurd ⟨ht, hq⟩ (hw ts v q)
    · rw [execOver_abort_idle (s := { s with turns := ts, hostQ := q }) hi] at h
      cases h
      exact ⟨hv, rfl, rfl, rfl, rfl⟩
  · exact absurd h (xportDone_idle hi)
  · exact absurd h (timerDone_idle hi)
  · exact absurd ht (hp ts)

/-! ### Two runs compared (R32, R45)

Both claims on two runs are one argument: a relation of states that are on the same course, kept when both states get
the same update, is kept by the step. `KeptByUpdates` lists the updates the block's operations are made of. -/

section TwoRuns

variable {E : Type}

/-- Two outcomes stop alike, or go on to states that `R` relates. -/
def goAlike (R : State.Over E → State.Over E → Prop) :
    Host.Outcome (State.Over E) Fault Refusal → Host.Outcome (State.Over E) Fault Refusal → Prop
  | .next s, .next t => R s t
  | .fault a, .fault b => a = b
  | .refused a, .refused b => a = b
  | _, _ => False

/-- `R` relates only states on the same course, and stays when both get the same update. The position moves to a waiting
state on its own, and to an idle one with a response (R236) or by the block reset. -/
structure KeptByUpdates (R : State.Over E → State.Over E → Prop) : Prop where
  course : ∀ {s t}, R s t → sameCourse s t
  turns : ∀ {s t} ts, R s t → R { s with turns := ts } { t with turns := ts }
  hostQ : ∀ {s t} q, R s t → R { s with hostQ := q } { t with hostQ := q }
  xportQ : ∀ {s t} q, R s t → R { s with xportQ := q } { t with xportQ := q }
  draws : ∀ {s t} n, R s t → R { s with draws := n } { t with draws := n }
  outstanding : ∀ {s t} o, R s t → R { s with outstanding := o } { t with outstanding := o }
  record : ∀ {s t} e, R s t → R (record e s) (record e t)
  needsInit : ∀ {s t} g, R s t → R { s with needsInit := g } { t with needsInit := g }
  faulted : ∀ {s t} m, R s t → R { s with faulted := m } { t with faulted := m }
  rspErr : ∀ {s t} e, R s t → R { s with rspErr := e } { t with rspErr := e }
  rbuf : ∀ {s t} b, R s t → R { s with rbuf := b } { t with rbuf := b }
  result : ∀ {s t} h c v, R s t →
    R { s with humRaw := h, tempRaw := c, resValid := v } { t with humRaw := h, tempRaw := c, resValid := v }
  accept : ∀ {s t}, R s t → R (accept s) (accept t)
  waits : ∀ {s t} f, isBusy f = true → R s t → R { s with fsm := f } { t with fsm := f }
  errorEntry : ∀ {s t} c f, R s t → R (errorEntry c f s) (errorEntry c f t)
  toUninit : ∀ {s t} c, R s t →
    R { s with fsm := .uninit, rspValid := false, rspCode := c }
      { t with fsm := .uninit, rspValid := false, rspCode := c }

variable {R : State.Over E → State.Over E → Prop} (hR : KeptByUpdates R) {p : Params} {s t : State.Over E}

include hR

theorem opened_alike (r : Request) (h : R s t) : R (opened r s) (opened r t) :=
  hR.record _ (hR.outstanding _ h)

theorem completed_alike (e : WireEntry E) (h : R s t) : R (completed e s) (completed e t) :=
  hR.record _ (hR.outstanding _ h)

theorem fsm_alike (h : R s t) : t.fsm = s.fsm := by
  obtain ⟨hf, _⟩ := hR.course h
  exact hf.symm

theorem outstanding_alike (h : R s t) : t.outstanding = s.outstanding := by
  obtain ⟨_, ho, _⟩ := hR.course h
  exact ho.symm

theorem draws_alike (h : R s t) : t.draws = s.draws := by
  obtain ⟨_, _, _, _, _, _, hd⟩ := hR.course h
  exact hd.symm

theorem issue_alike (r : Request) (h : R s t) : goAlike R (issue r s) (issue r t) := by
  have ho := outstanding_alike hR h
  by_cases hs : s.outstanding = none
  · rw [issue_of_none hs, issue_of_none (ho.trans hs)]
    exact opened_alike hR r h
  · rw [issue_of_some hs, issue_of_some (ho ▸ hs)]
    rfl

theorem withdraw_alike (h : R s t) : R (withdraw s) (withdraw t) := by
  have ho := outstanding_alike hR h
  have hd := draws_alike hR h
  rcases hs : s.outstanding with _ | ⟨a, fr⟩ | ⟨a, fr, n⟩ | ms <;>
    simp only [withdraw, ho, hs, hd]
  case none => exact h
  case some.delay => exact completed_alike hR _ h
  case some.write | some.writeRead => exact hR.draws _ (completed_alike hR _ h)

theorem blockReset_alike (h : R s t) : R (blockReset s) (blockReset t) := by
  have hw := withdraw_alike hR h
  simp only [blockReset, draws_alike hR hw]
  exact hR.draws _ (hR.needsInit _ (hR.rspErr _ (hR.toUninit _ (hR.result _ _ _ (hR.rbuf _ hw)))))

theorem illegal_alike (h : R s t) : R (illegal s) (illegal t) := by
  unfold illegal
  rw [fsm_alike hR h]
  exact hR.errorEntry _ _ (hR.faulted _ (hR.accept h))

theorem hostRequest_alike {legal : Bool} {start}
    (hstart : ∀ {s t}, R s t → goAlike R (start s) (start t)) (h : R s t) :
    goAlike R (hostRequest legal start s) (hostRequest legal start t) := by
  have hf := congrArg isBusy (fsm_alike hR h)
  cases hb : isBusy s.fsm
  case true => rw [hostRequest_busy hb, hostRequest_busy (hf.trans hb)]; exact h
  case false =>
    cases legal
    case true =>
      rw [hostRequest_legal hb, hostRequest_legal (hf.trans hb)]
      exact hstart (hR.accept h)
    case false =>
      rw [hostRequest_illegal hb, hostRequest_illegal (hf.trans hb)]
      exact illegal_alike hR h

theorem abortWith_alike (b : Bool) (h : R s t) : R (abortWith b s) (abortWith b t) := by
  have hf := fsm_alike hR h
  cases b
  case false => rw [abortWith_absent, abortWith_absent]; exact h
  case true =>
    cases hb : isBusy s.fsm
    case false => rw [abortWith_idle hb, abortWith_idle (hf ▸ hb)]; exact h
    case true =>
      rw [abortWith_busy hb, abortWith_busy (hf ▸ hb), hf]
      exact hR.errorEntry _ _ (hR.needsInit _ (withdraw_alike hR h))

theorem execOver_alike (i : Instr) (h : R s t) : goAlike R (execOver p i s) (execOver p i t) := by
  cases i <;> simp only [execOver]
  case init =>
    exact hostRequest_alike hR
      (fun h => issue_alike hR _ (hR.waits .initW1 rfl (hR.needsInit true h))) h
  case reset =>
    unfold requestReset
    rw [fsm_alike hR h]
    exact hostRequest_alike hR
      (fun h => issue_alike hR _ (hR.waits .resetW rfl (hR.needsInit true h))) h
  case read =>
    unfold requestRead
    rw [fsm_alike hR h]
    exact hostRequest_alike hR (fun h => issue_alike hR _ (hR.waits .readWr rfl h)) h
  case reservedOp => exact hostRequest_alike hR id h
  case abort => exact abortWith_alike hR _ h
  case trigger | calibrate | softreset | measure => exact issue_alike hR _ h

theorem transportError_alike (e : E) (f : Fsm) (h : R s t) :
    R (transportError e f s) (transportError e f t) :=
  hR.errorEntry _ _ (hR.rspErr _ h)

theorem readDone_alike (mask : Byte) (b : Response) (h : R s t) :
    R (readDone mask b s) (readDone mask b t) := by
  cases hc : (statusDecode mask b.b0).cal <;> simp only [readDone, hc]
  case false => exact hR.errorEntry _ _ (hR.rbuf b h)
  case true => exact hR.errorEntry .ok .ready (hR.result _ _ _ (hR.rbuf b h))

theorem xportStep_alike (c : XportReply E) (h : R s t) :
    goAlike R (xportStep p c s) (xportStep p c t) := by
  have hf := fsm_alike hR h
  cases hs : s.fsm <;> cases c <;> simp only [xportStep, hf, hs]
  case initW1.ok => exact issue_alike hR _ (hR.waits .initD1 rfl h)
  case initW2.ok => exact issue_alike hR _ (hR.waits .initD2 rfl h)
  case resetW.ok => exact issue_alike hR _ (hR.waits .resetD rfl h)
  case initW1.err e | initW2.err e => exact transportError_alike hR e _ (hR.needsInit true h)
  case resetW.err e | readWr.err e => exact transportError_alike hR e _ h
  case readWr.okBuf b => exact readDone_alike hR _ b h
  all_goals rfl

theorem xportDone_alike (c : XportReply E) (h : R s t) :
    goAlike R (xportDone p c s) (xportDone p c t) := by
  have ho := outstanding_alike hR h
  unfold xportDone
  rw [ho]
  split
  · rfl
  · split
    · exact xportStep_alike hR c (completed_alike hR _ h)
    · rfl

theorem timerStep_alike (h : R s t) : goAlike R (timerStep p s) (timerStep p t) := by
  have hf := fsm_alike hR h
  cases hs : s.fsm <;> simp only [timerStep, hf, hs]
  case initD1 => exact issue_alike hR _ (hR.waits .initW2 rfl h)
  case initD2 => exact hR.errorEntry .ok .ready (hR.needsInit false h)
  case resetD => exact hR.errorEntry .ok .ready h
  all_goals rfl

theorem timerDone_alike (h : R s t) : goAlike R (timerDone p s) (timerDone p t) := by
  have ho := outstanding_alike hR h
  unfold timerDone
  rw [ho]
  split
  · exact timerStep_alike hR (completed_alike hR _ h)
  all_goals rfl

theorem hostTurn_alike (h : R s t)
    (hread : ∀ idx q, s.hostQ = .read idx :: q →
      goAlike R (hostRead idx { s with hostQ := q }) (hostRead idx { t with hostQ := q })) :
    goAlike R (hostTurn p (execOver p) s) (hostTurn p (execOver p) t) := by
  obtain ⟨_, _, _, _, hh, _, _⟩ := hR.course h
  have hf := fsm_alike hR h
  rcases hq : s.hostQ with _ | ⟨⟨idx, v⟩ | idx, q⟩
  case nil => rw [hostTurn_nothing hq, hostTurn_nothing (hh ▸ hq)]; exact h
  case cons.read => rw [hostTurn_read hq, hostTurn_read (hh ▸ hq)]; exact hread idx q hq
  case cons.write =>
    by_cases hb : idx = 0 ∧ isBusy s.fsm = true
    · rw [hostTurn_held hq hb, hostTurn_held (hh ▸ hq) (hf ▸ hb)]; exact h
    · cases hd : decode p (.hostWrite idx v)
      case error =>
        rw [hostTurn_ignored hq hb hd, hostTurn_ignored (hh ▸ hq) (hf ▸ hb) hd]
        exact hR.hostQ q h
      case ok i =>
        rw [hostTurn_runs hq hb hd, hostTurn_runs (hh ▸ hq) (hf ▸ hb) hd]
        exact execOver_alike hR i (hR.hostQ q h)

theorem xportTurn_alike (h : R s t) : goAlike R (xportTurn p s) (xportTurn p t) := by
  obtain ⟨_, _, _, _, _, hx, _⟩ := hR.course h
  rcases hq : s.xportQ with _ | ⟨c, q⟩
  case nil => rw [xportTurn_nothing hq, xportTurn_nothing (hx ▸ hq)]; exact h
  case cons =>
    rw [xportTurn_completes hq, xportTurn_completes (hx ▸ hq)]
    exact xportDone_alike hR c (hR.xportQ q h)

/-- A step keeps the relation, if the host read it may be does. -/
theorem stepOver_alike (h : R s t)
    (hread : ∀ ts idx q, s.turns = .host :: ts → s.hostQ = .read idx :: q →
      goAlike R (hostRead idx { s with turns := ts, hostQ := q })
        (hostRead idx { t with turns := ts, hostQ := q })) :
    goAlike R (stepOver p s) (stepOver p t) := by
  obtain ⟨_, _, _, ht, _⟩ := hR.course h
  rcases hs : s.turns with _ | ⟨a, ts⟩
  · rw [stepOver_nil hs, stepOver_nil (ht ▸ hs)]; exact h
  · rw [stepOver_cons hs, stepOver_cons (ht ▸ hs)]
    cases a
    case host => exact hostTurn_alike hR (hR.turns ts h) fun idx q hq => hread ts idx q hs hq
    case xport => exact xportTurn_alike hR (hR.turns ts h)
    case timer => exact timerDone_alike hR (hR.turns ts h)
    case platform => exact blockReset_alike hR (hR.turns ts h)

end TwoRuns

/-! Two states alike but for the model-only fields (R45). -/

section ModelOnly

variable {E : Type}

/-- The states differ in the ghost, the fault mark and the last read's value at most. -/
def modelOnlyApart (s t : State.Over E) : Prop := ∃ g m d, t = withModelOnly g m d s

theorem modelOnlyApart_kept : KeptByUpdates (modelOnlyApart (E := E)) where
  course := by rintro s _ ⟨g, m, d, rfl⟩; exact ⟨rfl, rfl, rfl, rfl, rfl, rfl, rfl⟩
  turns := by rintro s _ _ ⟨g, m, d, rfl⟩; exact ⟨g, m, d, rfl⟩
  hostQ := by rintro s _ _ ⟨g, m, d, rfl⟩; exact ⟨g, m, d, rfl⟩
  xportQ := by rintro s _ _ ⟨g, m, d, rfl⟩; exact ⟨g, m, d, rfl⟩
  draws := by rintro s _ _ ⟨g, m, d, rfl⟩; exact ⟨g, m, d, rfl⟩
  outstanding := by rintro s _ _ ⟨g, m, d, rfl⟩; exact ⟨g, m, d, rfl⟩
  record := by rintro s _ _ ⟨g, m, d, rfl⟩; exact ⟨g, m, d, rfl⟩
  needsInit := by rintro s _ g ⟨_, m, d, rfl⟩; exact ⟨g, m, d, rfl⟩
  faulted := by rintro s _ m ⟨g, _, d, rfl⟩; exact ⟨g, m, d, rfl⟩
  rspErr := by rintro s _ _ ⟨g, m, d, rfl⟩; exact ⟨g, m, d, rfl⟩
  rbuf := by rintro s _ _ ⟨g, m, d, rfl⟩; exact ⟨g, m, d, rfl⟩
  result := by rintro s _ _ _ _ ⟨g, m, d, rfl⟩; exact ⟨g, m, d, rfl⟩
  accept := by rintro s _ ⟨g, m, d, rfl⟩; exact ⟨g, m, d, rfl⟩
  waits := by rintro s _ _ _ ⟨g, m, d, rfl⟩; exact ⟨g, m, d, rfl⟩
  errorEntry := by rintro s _ _ _ ⟨g, m, d, rfl⟩; exact ⟨g, m, d, rfl⟩
  toUninit := by rintro s _ _ ⟨g, m, d, rfl⟩; exact ⟨g, m, d, rfl⟩

/-- No register shows a model-only field. -/
theorem readRegister_withModelOnly (idx : Nat) (g m : Bool) (d : Option (ReadValue E)) (s : State.Over E) :
    readRegister idx (withModelOnly g m d s) = readRegister idx s := rfl

theorem hostRead_modelOnlyApart (idx : Nat) {s t : State.Over E} (h : modelOnlyApart s t) :
    goAlike modelOnlyApart (hostRead idx s) (hostRead idx t) := by
  obtain ⟨g, m, d, rfl⟩ := h
  unfold hostRead
  rw [readRegister_withModelOnly]
  cases readRegister idx s
  case error => rfl
  case ok v => exact ⟨g, m, some v, rfl⟩

theorem goAlike_modelOnlyApart {o o' : Host.Outcome (State.Over E) Fault Refusal}
    (h : goAlike modelOnlyApart o o') : ∃ g m d, o' = mapNext (withModelOnly g m d) o := by
  rcases o with s | a | a <;> rcases o' with t | b | b
  case next.next => obtain ⟨g, m, d, rfl⟩ := h; exact ⟨g, m, d, rfl⟩
  case fault.fault => obtain rfl : a = b := h; exact ⟨true, true, none, rfl⟩
  case refused.refused => obtain rfl : a = b := h; exact ⟨true, true, none, rfl⟩
  all_goals exact False.elim h

end ModelOnly

/-- Settles O58: setting the three fields keeps the states apart in these only, and so does a step. -/
theorem modelOnlyFieldsAreNeverRead : Obligations.ModelOnlyFieldsAreNeverRead := by
  intro E p s g m d
  have h : modelOnlyApart s (withModelOnly g m d s) := ⟨g, m, d, rfl⟩
  exact goAlike_modelOnlyApart (stepOver_alike modelOnlyApart_kept h fun ts idx q _ _ =>
    hostRead_modelOnlyApart idx (modelOnlyApart_kept.hostQ q (modelOnlyApart_kept.turns ts h)))

/-! Two states on the same course (R32). -/

section Course

variable {E : Type}

/-- What `sameOutcome` asks of two next states. -/
def courseSince (s₀ t₀ s t : State.Over E) : Prop := sameOutcome s₀ t₀ (.next s) (.next t)

theorem courseSince_start {s t : State.Over E} (h : sameCourse s t) : courseSince s t s t := by
  refine ⟨h, fun hb hi => ?_, [], by simp, by simp⟩
  rw [hb] at hi; cases hi

theorem courseSince_kept (s₀ t₀ : State.Over E) : KeptByUpdates (courseSince s₀ t₀) where
  course := fun ⟨h, _⟩ => h
  turns := fun _ ⟨⟨hf, ho, he, _, hh, hx, hd⟩, hr, hw⟩ => ⟨⟨hf, ho, he, rfl, hh, hx, hd⟩, hr, hw⟩
  hostQ := fun _ ⟨⟨hf, ho, he, ht, _, hx, hd⟩, hr, hw⟩ => ⟨⟨hf, ho, he, ht, rfl, hx, hd⟩, hr, hw⟩
  xportQ := fun _ ⟨⟨hf, ho, he, ht, hh, _, hd⟩, hr, hw⟩ => ⟨⟨hf, ho, he, ht, hh, rfl, hd⟩, hr, hw⟩
  draws := fun _ ⟨⟨hf, ho, he, ht, hh, hx, _⟩, hr, hw⟩ => ⟨⟨hf, ho, he, ht, hh, hx, rfl⟩, hr, hw⟩
  outstanding := fun _ ⟨⟨hf, _, he, ht, hh, hx, hd⟩, hr, hw⟩ => ⟨⟨hf, rfl, he, ht, hh, hx, hd⟩, hr, hw⟩
  record := fun e ⟨hc, hr, es, hs, ht⟩ => ⟨hc, hr, es ++ [e], by simp [hs], by simp [ht]⟩
  needsInit := fun _ h => h
  faulted := fun _ h => h
  rspErr := fun _ ⟨⟨hf, ho, _, ht, hh, hx, hd⟩, hr, hw⟩ => ⟨⟨hf, ho, rfl, ht, hh, hx, hd⟩, hr, hw⟩
  rbuf := fun _ h => h
  result := fun _ _ _ h => h
  accept := fun ⟨⟨hf, ho, _, ht, hh, hx, hd⟩, hr, hw⟩ =>
    ⟨⟨hf, ho, rfl, ht, hh, hx, hd⟩, fun hb hi => ⟨(hr hb hi).1, rfl⟩, hw⟩
  waits := by
    rintro s t f hf ⟨⟨_, ho, he, ht, hh, hx, hd⟩, _, hw⟩
    refine ⟨⟨rfl, ho, he, ht, hh, hx, hd⟩, fun _ (hi : isBusy f = false) => ?_, hw⟩
    rw [hf] at hi; cases hi
  errorEntry := fun _ _ ⟨⟨_, ho, he, ht, hh, hx, hd⟩, _, hw⟩ =>
    ⟨⟨rfl, ho, he, ht, hh, hx, hd⟩, fun _ _ => ⟨rfl, rfl⟩, hw⟩
  toUninit := fun _ ⟨⟨_, ho, he, ht, hh, hx, hd⟩, _, hw⟩ =>
    ⟨⟨rfl, ho, he, ht, hh, hx, hd⟩, fun _ _ => ⟨rfl, rfl⟩, hw⟩

theorem goAlike_courseSince {s t : State.Over E} {o o' : Host.Outcome (State.Over E) Fault Refusal}
    (h : goAlike (courseSince s t) o o') : sameOutcome s t o o' := by
  cases o <;> cases o' <;> exact h

end Course

/-- Settles O57: `courseSince` holds before the step, and the step keeps it. -/
theorem stepKeepsNoHistory : Obligations.StepKeepsNoHistory := by
  intro E p s t h hn
  refine goAlike_courseSince (stepOver_alike (courseSince_kept s t) (courseSince_start h) ?_)
  intro ts idx q ht hq
  simp [nextIsHostRead, ht, hq] at hn

/-! ### The host's register view (R43) -/

section HostRead

variable {E : Type} {p : Params} {s : State.Over E} {ts : List Agent} {q : List HostAct} {idx : Nat}

/-- No register shows what is left to do of the host and the other agents. -/
theorem readRegister_taken (idx : Nat) (s : State.Over E) (ts : List Agent) (q : List HostAct) :
    readRegister idx { s with turns := ts, hostQ := q } = readRegister idx s := rfl

theorem stepOver_hostRead (ht : s.turns = .host :: ts) (hq : s.hostQ = .read idx :: q) :
    stepOver p s = hostRead idx { s with turns := ts, hostQ := q } := by
  rw [stepOver_cons ht, turnOf]
  exact hostTurn_read (s := { s with turns := ts }) hq

theorem stepOver_read_ok {v : ReadValue E} (ht : s.turns = .host :: ts) (hq : s.hostQ = .read idx :: q)
    (hv : readRegister idx s = .ok v) :
    stepOver p s = .next { s with turns := ts, hostQ := q, readData := some v } := by
  rw [stepOver_hostRead ht hq, hostRead, readRegister_taken, hv]

theorem stepOver_read_fault {f : Fault} (ht : s.turns = .host :: ts) (hq : s.hostQ = .read idx :: q)
    (hf : readRegister idx s = .error f) : stepOver p s = .fault f := by
  rw [stepOver_hostRead ht hq, hostRead, readRegister_taken, hf]

theorem resultRead_valid (h : s.resValid = true) (v : RawCount) :
    resultRead s v = .ok (.word (v.setWidth 32)) := by
  rw [resultRead, if_pos h]

theorem resultRead_invalid (h : s.resValid = false) (v : RawCount) :
    resultRead s v = .error .readWithoutResult := by
  rw [resultRead, if_neg (by simp [h])]

theorem errorRead_held {e : E} (hc : s.rspCode = rspBits .transport) (he : s.rspErr = some e) :
    errorRead s = .ok (.err e) := by
  rw [errorRead, if_pos hc, he]

theorem errorRead_absent (h : s.rspCode ≠ rspBits .transport ∨ s.rspErr = none) :
    errorRead s = .error .readWithoutError := by
  rcases h with hc | he
  · rw [errorRead, if_neg hc]
  · rw [errorRead, he, ite_self]

theorem readRegister_other (h : idx = 0 ∨ idx = 1 ∨ 5 < idx) :
    readRegister idx s = .ok (.word 0#32) := by
  unfold readRegister
  split
  case h_5 => rfl
  all_goals omega

theorem decode_otherRegister (h : 1 < idx) (v : Word32) :
    decode p (.hostWrite idx v) = .error (.notCommandRegister idx) := by
  obtain ⟨k, rfl⟩ : ∃ k, idx = k + 2 := ⟨idx - 2, by omega⟩
  rfl

theorem stepOver_ignores {v : Word32} (ht : s.turns = .host :: ts) (hq : s.hostQ = .write idx v :: q)
    (h : 1 < idx) : stepOver p s = .next { s with turns := ts, hostQ := q } := by
  rw [stepOver_cons ht, turnOf]
  exact hostTurn_ignored (s := { s with turns := ts }) hq (by omega) (decode_otherRegister h v)

/-! The fields of STAT, from its bits (`statWord_getLsbD`). -/

theorem statWord_rspValid (s : State.Over E) : (statWord s).getLsbD 0 = s.rspValid := by
  rw [statWord_getLsbD s (by decide)]; simp

theorem statWord_resValid (s : State.Over E) : (statWord s).getLsbD 4 = s.resValid := by
  rw [statWord_getLsbD s (by decide)]; simp

theorem statWord_busy (s : State.Over E) : (statWord s).getLsbD 5 = isBusy s.fsm := by
  rw [statWord_getLsbD s (by decide)]; simp

theorem statWord_rspCode (s : State.Over E) : (statWord s).extractLsb' 1 3 = s.rspCode := by
  apply BitVec.eq_of_getLsbD_eq
  intro i hi
  rw [BitVec.getLsbD_extractLsb', statWord_getLsbD s (by omega)]
  simp [hi, show ¬ 8 ≤ 1 + i by omega, show 1 + i ≠ 5 by omega, show 1 + i ≠ 4 by omega]

theorem statWord_fsm (s : State.Over E) : (statWord s).extractLsb' 8 4 = fsmCode s.fsm := by
  apply BitVec.eq_of_getLsbD_eq
  intro i hi
  rw [BitVec.getLsbD_extractLsb', statWord_getLsbD s (by omega),
    BitVec.getLsbD_of_ge s.rspCode (8 + i - 1) (by omega)]
  simp [hi, show 8 + i ≠ 5 by omega, show 8 + i ≠ 4 by omega]

/-- No field stands in bits 7:6. -/
theorem statWord_gap (s : State.Over E) : (statWord s).extractLsb' 6 2 = 0#2 := by
  apply BitVec.eq_of_getLsbD_eq
  intro i hi
  rw [BitVec.getLsbD_extractLsb', statWord_getLsbD s (by omega),
    BitVec.getLsbD_of_ge s.rspCode (6 + i - 1) (by omega)]
  simp [show ¬ 8 ≤ 6 + i by omega, show 6 + i ≠ 5 by omega, show 6 + i ≠ 4 by omega]

/-- No field stands in bits 31:12. -/
theorem statWord_top (s : State.Over E) : (statWord s).extractLsb' 12 20 = 0#20 := by
  apply BitVec.eq_of_getLsbD_eq
  intro i hi
  rw [BitVec.getLsbD_extractLsb', statWord_getLsbD s (by omega),
    BitVec.getLsbD_of_ge s.rspCode (12 + i - 1) (by omega),
    BitVec.getLsbD_of_ge (fsmCode s.fsm) (12 + i - 8) (by omega)]
  simp [show 12 + i ≠ 5 by omega, show 12 + i ≠ 4 by omega]

end HostRead

/-- Settles O10: the word is `statWord` of the state. -/
theorem statShowsEveryField : Obligations.StatShowsEveryField :=
  fun s _ _ ht hq => ⟨statWord s, stepOver_read_ok ht hq rfl, statWord_rspValid s, statWord_rspCode s,
    statWord_resValid s, statWord_busy s, statWord_gap s, statWord_fsm s, statWord_top s⟩

/-- Settles O11. -/
theorem resultReadsNeedAValidResult : Obligations.ResultReadsNeedAValidResult := by
  intro s ts q ht
  refine ⟨fun hq hv => stepOver_read_ok ht hq (resultRead_valid hv _),
    fun hq hv => stepOver_read_ok ht hq (resultRead_valid hv _), ?_⟩
  rintro (hq | hq) hv <;> exact stepOver_read_fault ht hq (resultRead_invalid hv _)

/-- Settles O12: 0b001 is the code of TRANSPORT. -/
theorem errorReadNeedsATransportError : Obligations.ErrorReadNeedsATransportError :=
  fun _ _ _ ht hq => ⟨fun _ hc he => stepOver_read_ok ht hq (errorRead_held hc he),
    fun h => stepOver_read_fault ht hq (errorRead_absent h)⟩

/-- Settles O13. -/
theorem otherRegisterAccessesAreInert : Obligations.OtherRegisterAccessesAreInert :=
  fun _ _ _ ht => ⟨fun _ hidx hq => stepOver_read_ok ht hq (readRegister_other hidx),
    fun _ _ hidx hq => stepOver_ignores ht hq hidx⟩

/-! ### The codes, the state after block reset, and a frame sent too early -/

/-- Settles O6: the tables of R31 and R84, read off. -/
theorem stateAndResponseEncodings : Obligations.StateAndResponseEncodings := by
  unfold Obligations.StateAndResponseEncodings
  decide

/-- Settles O7: the fields of `State.reset`, read off. -/
theorem resetLeavesTheSpecifiedValues : Obligations.ResetLeavesTheSpecifiedValues :=
  ⟨rfl, rfl, rfl, rfl, rfl, rfl⟩

/-- Settles O18: each frame is an `issue`. -/
theorem framesNeedNoRequestOutstanding : Obligations.FramesNeedNoRequestOutstanding :=
  fun _ ho => ⟨issue_of_some ho, issue_of_some ho, issue_of_some ho, issue_of_some ho⟩

/-- Nothing is on the wire record after block reset, and nothing outstanding. -/
theorem wireInv_resetOf (E : Type) (p : Params) : WireInv p (State.resetOf E) :=
  ⟨fun _ h => absurd h List.not_mem_nil, rfl⟩

/-- Settles O54. -/
theorem resetMeetsTheWireInvariant : Obligations.ResetMeetsTheWireInvariant :=
  ⟨wireInv_resetOf XportError Config.params, wireInv_resetOf⟩

end Sys2Proof.Machine

/-! # The wire record of 20_memory.md: only legal requests are issued, one at a time

An event adds an issue where nothing is outstanding, or an entry that closes what is outstanding, and perhaps the issue
of the next request after it. So the invariant is kept by two shapes of update: `opened`, and `completed` with an entry
that is no issue. Every other update leaves the record and the outstanding request alone. -/

namespace Sys2Proof.Machine

open Sys2Proof

section WireRecord

variable {E : Type} {p : Params} {s t : State.Over E} {e : WireEntry E} {r : Request}

/-- Every request that R31's table names is one of the four frames to 0x38 or one of the two delays (R61, R86, R87). -/
theorem legalRequest_of_requestOf {f : Fsm} (h : requestOf p f = some r) : legalRequest p r := by
  cases f <;> cases h
  case initW1 => exact .inl rfl
  case initW2 => exact .inr (.inl rfl)
  case resetW => exact .inr (.inr (.inl rfl))
  case readWr => exact .inr (.inr (.inr (.inl rfl)))
  case initD1 | initD2 => exact .inr (.inr (.inr (.inr (.inl rfl))))
  case resetD => exact .inr (.inr (.inr (.inr (.inr rfl))))

theorem openAfter_append (rs : List Request) (es es' : List (WireEntry E)) :
    openAfter rs (es ++ es') = openAfter (openAfter rs es) es' := by
  induction es generalizing rs with
  | nil => rfl
  | cons e es ih => cases e <;> exact ih _

/-- An entry that is no issue closes the oldest open request. -/
theorem openAfter_closing (he : ∀ r, e ≠ .issued r) (rs : List Request) :
    openAfter rs [e] = rs.drop 1 := by
  cases e
  case issued r => exact absurd rfl (he r)
  all_goals rfl

/-! The two shapes of update that touch the record, and the withdrawal, which is the second or nothing. -/

/-- With nothing outstanding, the request that the position names may be issued. -/
theorem wireInv_opened (hi : WireInv p s) (ho : s.outstanding = none)
    (hr : requestOf p s.fsm = some r) : WireInv p (opened r s) := by
  obtain ⟨hlegal, hopen⟩ := hi
  refine ⟨fun r' hmem => ?_, ?_⟩
  · rcases List.mem_append.mp hmem with hold | hnew
    · exact hlegal r' hold
    · obtain rfl : r' = r := by simpa using hnew
      exact legalRequest_of_requestOf hr
  · calc openAfter [] (s.transcript ++ [.issued r])
        = openAfter [] s.transcript ++ [r] := openAfter_append _ _ _
      _ = [r] := by simp [hopen, ho]

/-- At most one request is open, so closing the oldest leaves none. -/
theorem wireInv_completed (he : ∀ r, e ≠ .issued r) (hi : WireInv p s) : WireInv p (completed e s) := by
  obtain ⟨hlegal, hopen⟩ := hi
  refine ⟨fun r hmem => ?_, ?_⟩
  · rcases List.mem_append.mp hmem with hold | hnew
    · exact hlegal r hold
    · exact absurd (List.mem_singleton.mp hnew).symm (he r)
  · calc openAfter [] (s.transcript ++ [e])
        = s.outstanding.toList.drop 1 := by rw [openAfter_append, openAfter_closing he, hopen]
      _ = [] := by cases s.outstanding <;> rfl

theorem wireInv_withdraw (hi : WireInv p s) : WireInv p (withdraw s) := by
  rcases withdraw_cases s with ⟨_, hw⟩ | ⟨ms, _, hw⟩ | ⟨r, _, _, hw⟩ <;> rw [hw]
  · exact hi
  · exact wireInv_completed (by simp) hi
  · exact wireInv_completed (e := .withdrawnXport r _) (by simp) hi

/-! The events of R253. Fields other than the record and the outstanding request do not matter: the invariant of a state
with these changed is the same statement. -/

theorem wireInv_execOver {idx : Nat} {v : Word32} {i : Instr} (hi : WireInv p s)
    (hd : decode p (.hostWrite idx v) = .ok i) (h : execOver p i s = .next t) : WireInv p t := by
  rcases execOver_of_hostWrite hd h with rfl | ⟨_, rfl⟩ | ⟨_, ho, rfl⟩ | ⟨_, ho, rfl⟩ | ⟨_, ho, rfl⟩ |
    ⟨_, _, rfl⟩
  · exact hi
  · exact hi
  · exact wireInv_opened hi ho rfl
  · exact wireInv_opened hi ho rfl
  · exact wireInv_opened hi ho rfl
  · exact wireInv_withdraw hi

theorem wireInv_readDone (mask : Byte) (b : Response) (hi : WireInv p s) :
    WireInv p (readDone mask b s) := by
  rcases readDone_cases mask b s with ⟨_, hd⟩ | ⟨_, hd⟩ <;> rw [hd] <;> exact hi

theorem wireInv_xportDone {c : XportReply E} (hi : WireInv p s) (h : xportDone p c s = .next t) :
    WireInv p t := by
  obtain ⟨_, _, _, h⟩ := xportDone_next h
  have hc : WireInv p (completed (.xportDone c) s) := wireInv_completed (by simp) hi
  rcases xportStep_next h with ⟨_, _, ho, rfl⟩ | ⟨_, _, ho, rfl⟩ | ⟨_, _, ho, rfl⟩ | ⟨e, _, _, rfl⟩ |
    ⟨e, _, _, rfl⟩ | ⟨b, _, _, rfl⟩
  · exact wireInv_opened hc ho rfl
  · exact wireInv_opened hc ho rfl
  · exact wireInv_opened hc ho rfl
  · exact hc
  · exact hc
  · exact wireInv_readDone p.calMask b hc

theorem wireInv_timerDone (hi : WireInv p s) (h : timerDone p s = .next t) : WireInv p t := by
  obtain ⟨_, _, h⟩ := timerDone_next h
  have hc : WireInv p (completed .timerDone s) := wireInv_completed (by simp) hi
  rcases timerStep_next h with ⟨_, ho, rfl⟩ | ⟨_, rfl⟩ | ⟨_, rfl⟩
  · exact wireInv_opened hc ho rfl
  · exact hc
  · exact hc

theorem wireInv_blockReset (hi : WireInv p s) : WireInv p (blockReset s) :=
  wireInv_withdraw hi

theorem wireInv_stepOver (hi : WireInv p s) (h : stepOver p s = .next t) : WireInv p t := by
  rcases stepOver_events h with ⟨ts, q, d, rfl⟩ | ⟨ts, q, i, _, ⟨idx, v, _, _, hd⟩, h⟩ |
    ⟨ts, c, q, _, _, h⟩ | ⟨ts, _, h⟩ | ⟨ts, _, rfl⟩
  · exact hi
  · exact wireInv_execOver (s := { s with turns := ts, hostQ := q }) hi hd h
  · exact wireInv_xportDone (s := { s with turns := ts, xportQ := q }) hi h
  · exact wireInv_timerDone (s := { s with turns := ts }) hi h
  · exact wireInv_blockReset (s := { s with turns := ts }) hi

end WireRecord

/-- Settles O55, by the events of a step; `step` is `stepOver Config.params`. -/
theorem stepKeepsTheWireInvariant : Obligations.StepKeepsTheWireInvariant :=
  ⟨fun _ _ hi h => wireInv_stepOver hi h, fun _ _ _ _ hi h => wireInv_stepOver hi h⟩

end Sys2Proof.Machine

/-! # The encodings of 30_encoding.md: decoder and encoder, host lines, and the transcripts of the operations -/

namespace Sys2Proof

/-! ### Decoder and encoder (R80 to R87) -/

section Encoding

variable {p : Params} {f : Frame} {i : Instr}

/-- The field `op` is bits 1:0 of the written value (R80). -/
theorem opField_eq_bits (v : Word32) :
    opField v = BitVec.ofBool (v.getLsbD 1) ++ BitVec.ofBool (v.getLsbD 0) := by
  apply BitVec.eq_of_getLsbD_eq
  intro i hi
  rw [opField, BitVec.getLsbD_extractLsb', BitVec.getLsbD_append]
  obtain rfl | rfl : i = 0 ∨ i = 1 := by omega
  all_goals simp

theorem op_cases : ∀ op : BitVec 2, op = 0b00#2 ∨ op = 0b01#2 ∨ op = 0b10#2 ∨ op = 0b11#2 := by
  decide

/-- The operation that an `op` field chooses has that `op` in its code. -/
theorem encodeWith_decodeOp (p : Params) (z : Word32) (op : BitVec 2) :
    encodeWith p z (decodeOp op) = .hostWrite 0 (reqValue z op) := by
  rcases op_cases op with rfl | rfl | rfl | rfl <;> rfl

theorem decode_reqValue (p : Params) (z : Word32) (op : BitVec 2) :
    decode p (.hostWrite 0 (reqValue z op)) = .ok (decodeOp op) := by
  rw [decode, opField_reqValue]

@[simp] theorem mkFrame_opc (opc : Byte) (w : BitVec 16) : (mkFrame opc w).opc = opc := rfl

theorem mkFrame_eq {opc : Byte} {w : BitVec 16} (ho : f.opc = opc) (hd : f.data = w) :
    mkFrame opc w = f := by
  rw [← ho, ← hd, mkFrame_of_data]

theorem decodeFrame_triggerFrame (p : Params) : decodeFrame p (triggerFrame p) = .ok .trigger := by
  simp [decodeFrame, triggerFrame]

theorem decodeFrame_calibrateFrame (hp : p.wf = true) :
    decodeFrame p (calibrateFrame p) = .ok .calibrate := by
  obtain ⟨hcal, _, _, _, _, _⟩ := opcodes_differ hp
  simp [decodeFrame, calibrateFrame, hcal]

theorem decodeFrame_softresetFrame (hp : p.wf = true) :
    decodeFrame p (softresetFrame p) = .ok .softreset := by
  obtain ⟨_, hraw, hcal, _, _, _⟩ := opcodes_differ hp
  simp [decodeFrame, softresetFrame, hraw, hcal]

theorem decodeFrame_measureFrame (hp : p.wf = true) :
    decodeFrame p (measureFrame p) = .ok .measure := by
  obtain ⟨_, _, _, hraw, hcal, hreset⟩ := opcodes_differ hp
  simp [decodeFrame, measureFrame, hraw, hcal, hreset]

theorem decode_encodeWith (hp : p.wf = true) (i : Instr) (z : Word32) :
    decode p (encodeWith p z i) = .ok i := by
  cases i with
  | init | reset | read | reservedOp => exact decode_reqValue p z _
  | abort => rfl
  | trigger => exact decodeFrame_triggerFrame p
  | calibrate => exact decodeFrame_calibrateFrame hp
  | softreset => exact decodeFrame_softresetFrame hp
  | measure => exact decodeFrame_measureFrame hp

/-- A frame that decodes is the frame of its instruction, whose opcode and data word it has (R87). -/
theorem encodeWith_of_decodeFrame (h : decodeFrame p f = .ok i) (z : Word32) :
    encodeWith p z i = .wire f.bytes := by
  unfold decodeFrame at h
  split_ifs at h with ho hd ho hd ho hd ho hd <;> cases h
  all_goals exact congrArg (fun f => Code.wire f.bytes) (mkFrame_eq ho hd)

/-- Only the three bytes of a frame decode on the wire (R85, R91). -/
theorem decode_wire {bytes : List Byte} (h : decode p (.wire bytes) = .ok i) :
    ∃ f : Frame, bytes = f.bytes ∧ decodeFrame p f = .ok i := by
  unfold decode at h
  split at h
  case h_4 hc => cases hc; exact ⟨_, rfl, h⟩
  case h_5 => cases h
  all_goals next hc => cases hc

theorem encodeWith_of_decode {c : Code} (h : decode p c = .ok i) :
    ∃ z : Word32, encodeWith p z i = c := by
  cases c with
  | hostWrite idx v =>
    refine ⟨v, ?_⟩
    rcases Machine.decode_hostWrite h with ⟨rfl, rfl⟩ | ⟨rfl, rfl⟩
    · rw [encodeWith_decodeOp, reqValue_opField]
    · rfl
  | wire bytes =>
    obtain ⟨f, rfl, hf⟩ := decode_wire h
    exact ⟨0#32, encodeWith_of_decodeFrame hf 0#32⟩

end Encoding

/-- Settles O5: the round trip of each instruction, and back from each code that decodes. -/
theorem decodeAndEncodeAgree : Obligations.DecodeAndEncodeAgree :=
  fun _ hp => ⟨decode_encodeWith hp, fun _ _ h => encodeWith_of_decode h⟩

/-- Settles O2: the two bits are the field `op`, and the four rows of R80 are read off. -/
theorem reqOpFieldSelectsOperation : Obligations.ReqOpFieldSelectsOperation := by
  intro p v
  rw [decode, opField_eq_bits]
  cases v.getLsbD 1 <;> cases v.getLsbD 0 <;> rfl

/-- Settles O3. -/
theorem abortIsAnyWriteToRegisterOne : Obligations.AbortIsAnyWriteToRegisterOne :=
  fun _ _ _ s => ⟨rfl, Machine.abortWith_absent s⟩

/-- Settles O4: the bytes of the data words, read off. -/
theorem frameBytesOnTheWire : Obligations.FrameBytesOnTheWire :=
  fun _ => ⟨rfl, rfl, rfl, rfl⟩

/-- Settles O47: the two programs, run through `assemble`. -/
theorem hostLinesAreRegisterWrites : Obligations.HostLinesAreRegisterWrites := by
  unfold Obligations.HostLinesAreRegisterWrites
  decide

end Sys2Proof

namespace Sys2Proof.Machine

open Sys2Proof

/-! ### The transcripts of the operations (R93)

One lemma per event of an operation that goes well: the accepted request, and the rows of R156 for a completion that is
OK. Each gives the whole next state, so a run is these in order. -/

section Transcript

variable {E : Type} {p : Params} {s : State.Over E} {ts : List Agent} {hq : List HostAct} {v : Word32}
  {xq : List (XportReply E)} {a : Addr7} {f : Frame} {n ms : Nat} {buf : Response}

/-- A completion and the next request add their two entries. -/
theorem opened_completed (e : WireEntry E) (r : Request) (g : Fsm) (s : State.Over E) :
    opened r { completed e s with fsm := g } =
      { s with fsm := g, outstanding := some r, transcript := s.transcript ++ [e, .issued r] } := by
  simp [opened, completed, record]

/-- The host's turn in an idle state takes the request that the field `op` of its write chooses. -/
theorem stepOver_request {i : Instr} (ht : s.turns = .host :: ts) (hh : s.hostQ = .write 0 v :: hq)
    (hidle : isBusy s.fsm = false) (hop : decodeOp (v.extractLsb' 0 2) = i) :
    stepOver p s = execOver p i { s with turns := ts, hostQ := hq } :=
  stepOver_runs ht hh (by simp [hidle]) (congrArg Except.ok hop)

/-- R120. -/
theorem execOver_init (hidle : isBusy s.fsm = false) (ho : s.outstanding = none) :
    execOver p .init s = .next { s with
      rspValid := false, resValid := false, rspErr := none, needsInit := true, fsm := .initW1,
      outstanding := some (triggerReq p), transcript := s.transcript ++ [.issued (triggerReq p)] } :=
  (requestInit_idle hidle).trans (issue_of_none ho)

/-- R130. -/
theorem execOver_reset (hf : s.fsm = .ready) (ho : s.outstanding = none) :
    execOver p .reset s = .next { s with
      rspValid := false, resValid := false, rspErr := none, needsInit := true, fsm := .resetW,
      outstanding := some (softresetReq p), transcript := s.transcript ++ [.issued (softresetReq p)] } :=
  (requestReset_ready hf).trans (issue_of_none ho)

/-- R140. -/
theorem execOver_read (hf : s.fsm = .ready) (ho : s.outstanding = none) :
    execOver p .read s = .next { s with
      rspValid := false, resValid := false, rspErr := none, fsm := .readWr,
      outstanding := some (measureReq p), transcript := s.transcript ++ [.issued (measureReq p)] } :=
  (requestRead_ready hf).trans (issue_of_none ho)

theorem stepOver_xport {c : XportReply E} {r : Request} (ht : s.turns = .xport :: ts)
    (hx : s.xportQ = c :: xq) (hr : s.outstanding = some r) (hfit : replyFits r c = true) :
    stepOver p s = xportStep p c (completed (.xportDone c) { s with turns := ts, xportQ := xq }) := by
  rw [stepOver_cons ht, turnOf, xportTurn_completes (s := { s with turns := ts }) hx]
  exact xportDone_of_fits hr hfit

theorem stepOver_timer (ht : s.turns = .timer :: ts) (hr : s.outstanding = some (.delay ms)) :
    stepOver p s = timerStep p (completed .timerDone { s with turns := ts }) := by
  rw [stepOver_cons ht, turnOf]
  exact timerDone_of_delay hr

/-- R121, R125, R132: a write completes OK, and the delay after it is requested. -/
theorem stepOver_writeOk {g : Fsm} (ht : s.turns = .xport :: ts) (hx : s.xportQ = .ok :: xq)
    (hr : s.outstanding = some (.write a f))
    (hrow : s.fsm = .initW1 ∧ g = .initD1 ∧ ms = 300 ∨ s.fsm = .initW2 ∧ g = .initD2 ∧ ms = 300 ∨
      s.fsm = .resetW ∧ g = .resetD ∧ ms = 20) :
    stepOver p s = .next { s with
      turns := ts, xportQ := xq, fsm := g, outstanding := some (.delay ms),
      transcript := s.transcript ++ [.xportDone .ok, .issued (.delay ms)] } := by
  rw [stepOver_xport ht hx hr rfl]
  rcases hrow with ⟨hf, rfl, rfl⟩ | ⟨hf, rfl, rfl⟩ | ⟨hf, rfl, rfl⟩
  all_goals
    simp only [xportStep, completed_fsm, hf]
    exact (issue_of_none rfl).trans (congrArg _ (opened_completed _ _ _ _))

/-- R142. -/
theorem stepOver_readWr_calibrated (ht : s.turns = .xport :: ts) (hx : s.xportQ = .okBuf buf :: xq)
    (hr : s.outstanding = some (.writeRead a f n)) (hf : s.fsm = .readWr)
    (hc : (statusDecode p.calMask buf.b0).cal = true) :
    stepOver p s = .next { s with
      turns := ts, xportQ := xq, fsm := .ready, outstanding := none, rbuf := buf,
      humRaw := unpackHum buf, tempRaw := unpackTemp buf, resValid := true,
      rspCode := 0b000#3, rspValid := true,
      transcript := s.transcript ++ [.xportDone (.okBuf buf)] } := by
  rw [stepOver_xport ht hx hr rfl]
  simp only [xportStep, completed_fsm, hf, readDone, hc]; rfl

/-- R123. -/
theorem stepOver_initD1_done (ht : s.turns = .timer :: ts) (hr : s.outstanding = some (.delay ms))
    (hf : s.fsm = .initD1) :
    stepOver p s = .next { s with
      turns := ts, fsm := .initW2, outstanding := some (calibrateReq p),
      transcript := s.transcript ++ [.timerDone, .issued (calibrateReq p)] } := by
  rw [stepOver_timer ht hr]
  simp only [timerStep, completed_fsm, hf]
  exact (issue_of_none rfl).trans (congrArg _ (opened_completed _ _ _ _))

/-- R126. -/
theorem stepOver_initD2_done (ht : s.turns = .timer :: ts) (hr : s.outstanding = some (.delay ms))
    (hf : s.fsm = .initD2) :
    stepOver p s = .next { s with
      turns := ts, fsm := .ready, outstanding := none, needsInit := false,
      rspCode := 0b000#3, rspValid := true, transcript := s.transcript ++ [.timerDone] } := by
  rw [stepOver_timer ht hr]
  simp only [timerStep, completed_fsm, hf]; rfl

/-- R133. -/
theorem stepOver_resetD_done (ht : s.turns = .timer :: ts) (hr : s.outstanding = some (.delay ms))
    (hf : s.fsm = .resetD) :
    stepOver p s = .next { s with
      turns := ts, fsm := .ready, outstanding := none, rspCode := 0b000#3, rspValid := true,
      transcript := s.transcript ++ [.timerDone] } := by
  rw [stepOver_timer ht hr]
  simp only [timerStep, completed_fsm, hf]; rfl

end Transcript

/-- Settles O35: each run is its events in order, and its entries are put together at the end. -/
theorem operationsRunTheirTranscripts : Obligations.OperationsRunTheirTranscripts := by
  intro E p s v ts hq xq ho hh
  refine ⟨fun hf hv ht hx => ?init, fun hf hv ht hx => ?reset, fun buf hf hv ht hx hc => ?read⟩
  case init =>
    have hidle : isBusy s.fsm = false := by rcases hf with hf | hf <;> rw [hf] <;> rfl
    calc (coreOver E p).run 5 s
      _ = (coreOver E p).run 4 _ :=
        core_run_next ((stepOver_request ht hh hidle (congrArg decodeOp hv)).trans (execOver_init hidle ho))
      _ = (coreOver E p).run 3 _ := core_run_next (stepOver_writeOk rfl hx rfl (.inl ⟨rfl, rfl, rfl⟩))
      _ = (coreOver E p).run 2 _ := core_run_next (stepOver_initD1_done rfl rfl rfl)
      _ = (coreOver E p).run 1 _ := core_run_next (stepOver_writeOk rfl rfl rfl (.inr (.inl ⟨rfl, rfl, rfl⟩)))
      _ = (coreOver E p).run 0 _ := core_run_next (stepOver_initD2_done rfl rfl rfl)
      _ = _ := by simp only [core_run_zero, List.append_assoc]; rfl
  case reset =>
    have hidle : isBusy s.fsm = false := congrArg isBusy hf
    calc (coreOver E p).run 3 s
      _ = (coreOver E p).run 2 _ :=
        core_run_next ((stepOver_request ht hh hidle (congrArg decodeOp hv)).trans (execOver_reset hf ho))
      _ = (coreOver E p).run 1 _ := core_run_next (stepOver_writeOk rfl hx rfl (.inr (.inr ⟨rfl, rfl, rfl⟩)))
      _ = (coreOver E p).run 0 _ := core_run_next (stepOver_resetD_done rfl rfl rfl)
      _ = _ := by simp only [core_run_zero, List.append_assoc]; rfl
  case read =>
    have hidle : isBusy s.fsm = false := congrArg isBusy hf
    calc (coreOver E p).run 2 s
      _ = (coreOver E p).run 1 _ :=
        core_run_next ((stepOver_request ht hh hidle (congrArg decodeOp hv)).trans (execOver_read hf ho))
      _ = (coreOver E p).run 0 _ := core_run_next (stepOver_readWr_calibrated rfl hx rfl rfl hc)
      _ = _ := by simp only [core_run_zero, List.append_assoc]; rfl

end Sys2Proof.Machine

/-! # The wire frames of 40_wire_commands.md

A frame is an `issue` of its request, and the step of the host operation that sends it is that frame at the state the
operation has prepared. -/

namespace Sys2Proof.Machine

open Sys2Proof

/-- R123, R115: the end of the first delay of INIT sends CALIBRATE. -/
theorem stepOver_initD1_sendsCalibrate {E : Type} {p : Params} {s : State.Over E} {ts : List Agent} {ms : Nat}
    (ht : s.turns = .timer :: ts) (hf : s.fsm = .initD1) (hr : s.outstanding = some (.delay ms)) :
    stepOver p s = execOver p .calibrate { s with
      turns := ts, fsm := .initW2, outstanding := none, transcript := s.transcript ++ [.timerDone] } := by
  rw [stepOver_timer ht hr]
  simp only [timerStep, completed_fsm, hf]
  rfl

/-- Settles O16: the accepted requests send TRIGGER, SOFTRESET and MEASURE, and the row of INIT_D1 sends CALIBRATE. -/
theorem operationsSendTheirFrames : Obligations.OperationsSendTheirFrames := by
  intro s
  refine ⟨fun hidle => ?init, fun hf => ⟨requestReset_ready hf, requestRead_ready hf⟩,
    fun _ _ ht hf hr => stepOver_initD1_sendsCalibrate ht hf hr⟩
  case init =>
    have hbusy : isBusy s.fsm = false := by rcases hidle with hf | hf <;> rw [hf] <;> rfl
    exact requestInit_idle hbusy

/-- Settles O17: each frame is an `issue` with nothing outstanding. -/
theorem framesIssueTheirRequests : Obligations.FramesIssueTheirRequests :=
  fun _ ho => ⟨issue_of_none ho, issue_of_none ho, issue_of_none ho, issue_of_none ho⟩

end Sys2Proof.Machine

/-! # The sequencer of 41_sequencer.md

Requests and ABORT are statements on `execOver p`, completions on `stepOver p`; each obligation is then one of them at
`Config.params`, whose frames and delays are the numbers the statement writes out. -/

namespace Sys2Proof.Machine

open Sys2Proof

section Sequencer

variable {E : Type} {p : Params} {s t : State.Over E} {ts : List Agent} {xq : List (XportReply E)}
  {c : XportReply E} {r : Request}

/-! ### Completions without a move (R162), and withdrawal (R152) -/

/-- With nothing outstanding the hypothesis is void, so this is also R162's first case. -/
theorem xportDone_refused (h : ∀ r, s.outstanding = some r → replyFits r c = false) :
    xportDone p c s = .refused (.noMove .xport) := by
  rcases ho : s.outstanding with _ | r
  · simp [xportDone, ho]
  · simp [xportDone, ho, h r ho]

theorem timerDone_refused (h : ∀ ms, s.outstanding ≠ some (.delay ms)) :
    timerDone p s = .refused (.noMove .timer) := by
  unfold timerDone
  split
  · next ms ho => exact absurd ho (h ms)
  all_goals rfl

theorem stepOver_xport_refused (ht : s.turns = .xport :: ts) (hx : s.xportQ = c :: xq)
    (h : ∀ r, s.outstanding = some r → replyFits r c = false) :
    stepOver p s = .refused (.noMove .xport) := by
  rw [stepOver_cons ht, turnOf, xportTurn_completes (s := { s with turns := ts }) hx]
  exact xportDone_refused h

theorem stepOver_timer_refused (ht : s.turns = .timer :: ts)
    (h : ∀ ms, s.outstanding ≠ some (.delay ms)) : stepOver p s = .refused (.noMove .timer) := by
  rw [stepOver_cons ht, turnOf]
  exact timerDone_refused h

theorem withdraw_transcript_delay {ms : Nat} (ho : s.outstanding = some (.delay ms)) :
    (withdraw s).transcript = s.transcript ++ [.withdrawnTimer ms] := by
  simp [withdraw, ho]

theorem withdraw_transcript_transport (ho : s.outstanding = some r) (hr : ∀ ms, r ≠ .delay ms) :
    ∃ o, (withdraw s).transcript = s.transcript ++ [.withdrawnXport r o] := by
  rcases withdraw_cases s with ⟨hn, _⟩ | ⟨ms, hd, _⟩ | ⟨r', hr', _, hw⟩
  · rw [ho] at hn; cases hn
  · rw [ho] at hd; cases hd; exact absurd rfl (hr ms)
  · rw [ho] at hr'; cases hr'; exact ⟨_, by rw [hw]; rfl⟩

/-! ### ABORT (R150, R151) -/

theorem execOver_abort_busy (hp : p.hasAbort = true) (hb : isBusy s.fsm = true) :
    execOver p .abort s = .next { withdraw s with
      fsm := cancelledTo s.fsm, needsInit := true, rspCode := 0b100#3, rspValid := true } := by
  rw [execOver, writeAbort, hp, abortWith_busy hb]
  rfl

/-- ABORT responds and cancels; it is no `Accept()`, and it marks no fault (R150, R151). -/
theorem abortWith_leaves (hasAbort : Bool) (s : State.Over E) :
    (abortWith hasAbort s).resValid = s.resValid ∧ (abortWith hasAbort s).rspErr = s.rspErr ∧
      (abortWith hasAbort s).faulted = s.faulted := by
  unfold abortWith
  split
  · simp
  · exact ⟨rfl, rfl, rfl⟩

/-! ### What an instruction leaves alone -/

theorem isBusy_of_idle {f : Fsm} (h : f = .uninit ∨ f = .ready) : isBusy f = false := by
  rcases h with rfl | rfl <;> rfl

/-- No instruction touches what the outside will do or what the last host read handed out (log 1, log 8). -/
theorem execOver_keepsOutside {i : Instr} (h : execOver p i s = .next t) :
    t.turns = s.turns ∧ t.hostQ = s.hostQ ∧ t.xportQ = s.xportQ ∧ t.readData = s.readData := by
  rcases execOver_next h with rfl | ⟨_, rfl⟩ | ⟨_, _, _, rfl⟩ | ⟨_, _, _, rfl⟩ | ⟨_, _, _, rfl⟩ |
    ⟨_, _, _, rfl⟩ | ⟨_, _, rfl⟩ | ⟨_, _, rfl⟩ | ⟨_, _, rfl⟩ | ⟨_, _, rfl⟩ <;> simp

/-- Only a withdrawal draws, and only ABORT withdraws (log 4). -/
theorem execOver_draws {i : Instr} (h : execOver p i s = .next t) (hi : i ≠ .abort) :
    t.draws = s.draws := by
  rcases execOver_next h with rfl | ⟨_, rfl⟩ | ⟨_, _, _, rfl⟩ | ⟨_, _, _, rfl⟩ | ⟨_, _, _, rfl⟩ |
    ⟨ha, _, _, _⟩ | ⟨_, _, rfl⟩ | ⟨_, _, rfl⟩ | ⟨_, _, rfl⟩ | ⟨_, _, rfl⟩
  case inr.inr.inr.inr.inr.inl => exact absurd ha hi
  all_goals rfl

theorem execOver_frame {i : Instr} (h : execOver p i s = .next t)
    (hi : i = .trigger ∨ i = .calibrate ∨ i = .softreset ∨ i = .measure) :
    ∃ r, t = opened r s := by
  rcases hi with rfl | rfl | rfl | rfl <;> exact ⟨_, (issue_next h).2⟩

/-- INIT is legal in both idle states, so it is never answered ILLEGAL (R120, R127). -/
theorem requestInit_next (h : requestInit p s = .next t) :
    t = s ∨ t = opened (triggerReq p) { accept s with needsInit := true, fsm := .initW1 } := by
  rcases hostRequest_next h with ⟨_, rfl⟩ | ⟨_, _, h⟩ | ⟨_, hl, _⟩
  · exact .inl rfl
  · exact .inr (issue_next h).2
  · cases hl

theorem requestRead_next (h : requestRead p s = .next t) :
    t = s ∨ t = opened (measureReq p) { accept s with fsm := .readWr } ∨ t = illegal s := by
  rcases hostRequest_next h with ⟨_, rfl⟩ | ⟨_, _, h⟩ | ⟨_, _, rfl⟩
  · exact .inl rfl
  · exact .inr (.inl (issue_next h).2)
  · exact .inr (.inr rfl)

/-- The reserved op is legal in no state (R160). -/
theorem requestReserved_next (h : requestReserved s = .next t) : t = s ∨ t = illegal s := by
  rcases hostRequest_next h with ⟨_, rfl⟩ | ⟨_, hl, _⟩ | ⟨_, _, rfl⟩
  · exact .inl rfl
  · cases hl
  · exact .inr rfl

/-! ### The rows of R156 that the transcripts of R93 do not run -/

/-- R161: a request while busy uses up the turn and stays with the host (log 15). -/
theorem stepOver_held {v : Word32} {q : List HostAct} (ht : s.turns = .host :: ts)
    (hq : s.hostQ = .write 0 v :: q) (hb : isBusy s.fsm = true) :
    stepOver p s = .next { s with turns := ts } := by
  rw [stepOver_cons ht, turnOf]
  exact hostTurn_held (s := { s with turns := ts }) hq ⟨rfl, hb⟩

/-- R122, R124. -/
theorem stepOver_initWrite_failed {e : E} (ht : s.turns = .xport :: ts) (hx : s.xportQ = .err e :: xq)
    (hr : s.outstanding = some r) (hfit : replyFits r (.err e : XportReply E) = true)
    (hf : s.fsm = .initW1 ∨ s.fsm = .initW2) :
    stepOver p s = .next { s with
      turns := ts, xportQ := xq, fsm := .uninit, outstanding := none, rspErr := some e,
      rspCode := 0b001#3, rspValid := true, needsInit := true,
      transcript := s.transcript ++ [.xportDone (.err e)] } := by
  rw [stepOver_xport ht hx hr hfit]
  rcases hf with hf | hf <;> simp only [xportStep, completed_fsm, hf] <;> rfl

/-- R131, R143: a failure outside INIT leaves the driver in READY. -/
theorem stepOver_failedInReady {e : E} (ht : s.turns = .xport :: ts) (hx : s.xportQ = .err e :: xq)
    (hr : s.outstanding = some r) (hfit : replyFits r (.err e : XportReply E) = true)
    (hf : s.fsm = .resetW ∨ s.fsm = .readWr) :
    stepOver p s = .next { s with
      turns := ts, xportQ := xq, fsm := .ready, outstanding := none, rspErr := some e,
      rspCode := 0b001#3, rspValid := true,
      transcript := s.transcript ++ [.xportDone (.err e)] } := by
  rw [stepOver_xport ht hx hr hfit]
  rcases hf with hf | hf <;> simp only [xportStep, completed_fsm, hf] <;> rfl

/-- R141. -/
theorem stepOver_readWr_uncalibrated {a : Addr7} {f : Frame} {n : Nat} {buf : Response}
    (ht : s.turns = .xport :: ts) (hx : s.xportQ = .okBuf buf :: xq)
    (hr : s.outstanding = some (.writeRead a f n)) (hf : s.fsm = .readWr)
    (hc : (statusDecode p.calMask buf.b0).cal = false) :
    stepOver p s = .next { s with
      turns := ts, xportQ := xq, fsm := .ready, outstanding := none, rbuf := buf,
      rspCode := 0b010#3, rspValid := true,
      transcript := s.transcript ++ [.xportDone (.okBuf buf)] } := by
  rw [stepOver_xport ht hx hr rfl]
  simp only [xportStep, completed_fsm, hf, readDone, hc]; rfl

end Sequencer

/-! ### The obligations of 41_sequencer.md -/

/-- Settles O9: after the withdrawal nothing is outstanding, so no completion has a move. -/
theorem withdrawnRequestNeverCompletes : Obligations.WithdrawnRequestNeverCompletes := by
  intro E p s r ho
  refine ⟨withdraw_outstanding s, fun ms hms => withdraw_transcript_delay (hms ▸ ho),
    withdraw_transcript_transport ho, fun c => xportDone_refused ?_, timerDone_refused ?_⟩
  all_goals simp

/-- Settles O23: `cancelledTo` is UNINIT in the waiting states of INIT and READY in the others. -/
theorem abortCancelsTheOperation : Obligations.AbortCancelsTheOperation := by
  intro s
  have habort : isBusy s.fsm = true → exec .abort s = .next { withdraw s with
      fsm := cancelledTo s.fsm, needsInit := true, rspCode := 0b100#3, rspValid := true } :=
    execOver_abort_busy rfl
  constructor
  · rintro (hf | hf | hf | hf) <;> rw [habort (by rw [hf]; rfl), hf] <;> rfl
  · rintro (hf | hf | hf) <;> rw [habort (by rw [hf]; rfl), hf] <;> rfl

/-- Settles O25: what all instructions leave alone, then the frames, INIT, READ, the reserved op and ABORT. -/
theorem instructionsLeaveTheRestAlone : Obligations.InstructionsLeaveTheRestAlone := by
  intro i s t h
  obtain ⟨hrbuf, hhum, htemp, _⟩ := execOver_keepsReading h
  obtain ⟨hturns, hhostQ, hxportQ, hread⟩ := execOver_keepsOutside h
  refine ⟨hrbuf, hhum, htemp, hturns, hhostQ, hxportQ, hread, execOver_draws h, fun hi => ?frame,
    ?init, ?readOrReserved, ?reservedOp, ?abort⟩
  case frame =>
    obtain ⟨r, rfl⟩ := execOver_frame h hi
    exact ⟨rfl, rfl, rfl, rfl, rfl, rfl, rfl⟩
  case init =>
    rintro rfl
    rcases requestInit_next h with rfl | rfl <;> exact ⟨rfl, rfl⟩
  case readOrReserved =>
    rintro (rfl | rfl)
    · rcases requestRead_next h with rfl | rfl | rfl <;> rfl
    · rcases requestReserved_next h with rfl | rfl <;> rfl
  case reservedOp =>
    rintro rfl
    rcases requestReserved_next h with rfl | rfl <;> exact ⟨rfl, rfl, rfl⟩
  case abort =>
    rintro rfl
    cases h
    exact abortWith_leaves _ s

/-- Settles O34: in each case of R162 the completion does not fit what is outstanding. -/
theorem unexpectedCompletionsHaveNoMove : Obligations.UnexpectedCompletionsHaveNoMove := by
  intro s ts
  refine ⟨fun c q ht hx hcase => stepOver_xport_refused ht hx fun r hr => ?_,
    fun ht h => stepOver_timer_refused ht h⟩
  rcases hcase with ho | ⟨ms, ho⟩ | ⟨a, f, b, ho, rfl⟩ | ⟨a, f, n, ho, rfl⟩ <;> rw [hr] at ho <;> cases ho
  all_goals rfl

/-- Settles O14. -/
theorem requestsAreHeldWhileBusy : Obligations.RequestsAreHeldWhileBusy := by
  intro s hb
  have hheld {i : Instr} (hi : i = .init ∨ i = .reset ∨ i = .read ∨ i = .reservedOp) :
      exec i s = .next s := execOver_held hb hi
  exact ⟨fun _ _ _ ht hq => stepOver_held ht hq hb, hheld (by simp), hheld (by simp), hheld (by simp),
    hheld (by simp)⟩

/-- Settles O19. -/
theorem initIsAccepted : Obligations.InitIsAccepted :=
  fun _ hidle ho => execOver_init (isBusy_of_idle hidle) ho

/-- Settles O20. -/
theorem resetIsAccepted : Obligations.ResetIsAccepted :=
  fun _ hf ho => execOver_reset hf ho

/-- Settles O21. -/
theorem readIsAccepted : Obligations.ReadIsAccepted :=
  fun _ hf ho => execOver_read hf ho

/-- Settles O22: each is answered by `illegal`, whose fields are read off. -/
theorem illegalRequestsAreAnswered : Obligations.IllegalRequestsAreAnswered :=
  fun _ => ⟨fun hf => ⟨requestReset_illegal hf, requestRead_illegal hf⟩,
    fun hidle => requestReserved_idle (isBusy_of_idle hidle)⟩

/-- Settles O24. -/
theorem abortWhenIdleDoesNothing : Obligations.AbortWhenIdleDoesNothing :=
  fun s hidle =>
    have hb : isBusy s.fsm = false := isBusy_of_idle hidle
    ⟨execOver_abort_idle hb, abortWith_idle hb, abortWith_absent s⟩

/-- Settles O26. -/
theorem initWritesCompleteOk : Obligations.InitWritesCompleteOk :=
  fun _ _ _ _ _ ht hx hr => ⟨fun hf => stepOver_writeOk ht hx hr (.inl ⟨hf, rfl, rfl⟩),
    fun hf => stepOver_writeOk ht hx hr (.inr (.inl ⟨hf, rfl, rfl⟩))⟩

/-- Settles O27. -/
theorem initWriteFailureEndsInUninit : Obligations.InitWriteFailureEndsInUninit :=
  fun _ _ _ _ _ _ ht hx hr hf => stepOver_initWrite_failed ht hx hr rfl hf

/-- Settles O28. -/
theorem initDelaysComplete : Obligations.InitDelaysComplete :=
  fun _ _ _ ht hr => ⟨stepOver_initD1_done ht hr, stepOver_initD2_done ht hr⟩

/-- Settles O29. -/
theorem resetWriteCompletes : Obligations.ResetWriteCompletes :=
  fun _ _ _ _ _ ht hf hr => ⟨fun _ hx => stepOver_failedInReady ht hx hr rfl (.inl hf),
    fun hx => stepOver_writeOk ht hx hr (.inr (.inr ⟨hf, rfl, rfl⟩))⟩

/-- Settles O30. -/
theorem resetDelayCompletes : Obligations.ResetDelayCompletes :=
  fun _ _ _ ht hf hr => stepOver_resetD_done ht hr hf

/-- Settles O31. -/
theorem readWithoutCalibrationIsRejected : Obligations.ReadWithoutCalibrationIsRejected :=
  fun _ _ _ _ _ _ _ ht hx hf hr hc => stepOver_readWr_uncalibrated ht hx hr hf hc

/-- Settles O32. -/
theorem calibratedReadWritesTheResult : Obligations.CalibratedReadWritesTheResult :=
  fun _ _ _ _ _ _ _ ht hx hf hr hc => stepOver_readWr_calibrated ht hx hr hf hc

/-- Settles O33. -/
theorem readTransportFailure : Obligations.ReadTransportFailure :=
  fun _ _ _ _ _ _ _ ht hx hf hr => stepOver_failedInReady ht hx hr rfl (.inr hf)

end Sys2Proof.Machine

/-! # The status decoder of 42_status_decoder.md

The calibration flag is a test of one bit of the status byte, and READ's response is a function of that flag. -/

namespace Sys2Proof

theorem ofNat_two_pow_eq_twoPow (w k : Nat) : BitVec.ofNat w (2 ^ k) = BitVec.twoPow w k :=
  BitVec.eq_of_toNat_eq (by rw [BitVec.toNat_ofNat, BitVec.toNat_twoPow])

theorem twoPow_ne_zero {w k : Nat} (hk : k < w) : BitVec.twoPow w k ≠ 0#w := by
  intro h
  have hbit : (BitVec.twoPow w k).getLsbD k = false := by rw [h, BitVec.getLsbD_zero]
  simp [hk] at hbit

theorem calMask_of_wf {p : Params} (h : p.wf = true) :
    ∃ k, k < 8 ∧ p.calMask = BitVec.ofNat 8 (2 ^ k) := by
  simpa [Params.wf, Params.calMaskOneBit] using (Bool.and_eq_true_iff.mp h).2

end Sys2Proof

namespace Sys2Proof.Machine

open Sys2Proof

/-- R176: with a mask of one bit, the calibration flag is that bit of the status byte. -/
theorem statusDecode_cal_oneBit {k : Nat} (hk : k < 8) (s : Byte) :
    (statusDecode (BitVec.ofNat 8 (2 ^ k)) s).cal = s.getLsbD k := by
  have hmask : (s &&& BitVec.twoPow 8 k != 0#8) = s.getLsbD k := by
    rw [BitVec.and_twoPow]
    cases s.getLsbD k
    · rfl
    · simpa using twoPow_ne_zero hk
  rw [ofNat_two_pow_eq_twoPow]
  exact hmask

/-- R170: with the default mask, the calibration flag is bit 3. -/
theorem statusDecode_cal_default (s : Byte) : (statusDecode 0x08#8 s).cal = s.getLsbD 3 :=
  statusDecode_cal_oneBit (k := 3) (by decide) s

/-- R141, R142: READ_WR's completion responds by the calibration flag alone. -/
@[simp] theorem readDone_rspCode {E : Type} (mask : Byte) (b : Response) (s : State.Over E) :
    (readDone mask b s).rspCode =
      if (statusDecode mask b.b0).cal then rspBits .ok else rspBits .uncalibrated := by
  rcases readDone_cases mask b s with ⟨hc, hd⟩ | ⟨hc, hd⟩ <;> rw [hd, hc] <;> rfl

/-- Settles O39: the mask does not enter the other outputs, and the default mask is bit 3. -/
theorem calMaskPicksOneBit : Obligations.CalMaskPicksOneBit := by
  intro p s hp
  obtain ⟨k, hk, hmask⟩ := calMask_of_wf hp
  have hcal : (statusDecode p.calMask s).cal = s.getLsbD k := by
    rw [hmask, statusDecode_cal_oneBit hk]
  exact ⟨k, hk, hmask, hcal, by rw [← statusDecode_cal_default]; rfl⟩

/-- Settles O40: both ends of a READ lead to READY, with OK on the calibrated one only. -/
theorem verdictRestsOnTheCalibrationFlag : Obligations.VerdictRestsOnTheCalibrationFlag := by
  intro E mask b b' s s' hflag
  refine ⟨?code, ?position, ?okIff⟩
  case code => rw [readDone_rspCode, readDone_rspCode, hflag]
  case position => rw [readDone_fsm, readDone_fsm]
  case okIff =>
    rw [readDone_rspCode]
    cases (statusDecode mask b.b0).cal <;> decide

/-- Settles O38: the default mask is bit 3, and the decoder reads the other fields at these places. -/
theorem statusByteFields : Obligations.StatusByteFields := by
  intro s
  rw [← statusDecode_cal_default]
  rfl

end Sys2Proof.Machine


/-! # The field unpacker of 43_field_unpacker.md

The shift and OR formulas are zero-extended concatenations of bytes and nibbles (R194); the obligations read the
fields, the sums and the inverse off these concatenations. -/

namespace Sys2Proof.Machine

open Sys2Proof

/-- R194: parts that share no bit add up, which turns the ORs into sums. -/
theorem toNat_append_eq_add {m n : Nat} (x : BitVec m) (y : BitVec n) :
    (x ++ y).toNat = x.toNat * 2 ^ n + y.toNat := by
  rw [BitVec.toNat_append, ← Nat.shiftLeft_add_eq_or_of_lt y.isLt, Nat.shiftLeft_eq]

theorem extractLsb'_setWidth_of_width_le {w v start len : Nat} (x : BitVec w) (h : w ≤ start) :
    (x.setWidth v).extractLsb' start len = 0#len := by
  apply BitVec.eq_of_getLsbD_eq
  intro i hi
  simp [BitVec.getLsbD_of_ge x (start + i) (by omega)]

theorem zext32_ushiftRight_four (x : Byte) : zext32 x >>> 4 = (x.extractLsb' 4 4).setWidth 32 := by
  have hx : x.toNat < 2 ^ 8 := x.isLt
  apply BitVec.eq_of_toNat_eq
  rw [BitVec.toNat_ushiftRight, zext32, BitVec.toNat_setWidth_of_le (by decide),
    BitVec.toNat_setWidth_of_le (by decide), BitVec.extractLsb'_toNat, Nat.shiftRight_eq_div_pow]
  omega

theorem zext32_and_lowNibble (x : Byte) : zext32 x &&& 0x0F#32 = (x.extractLsb' 0 4).setWidth 32 := by
  apply BitVec.eq_of_toNat_eq
  rw [BitVec.toNat_and, zext32, BitVec.toNat_setWidth_of_le (by decide),
    BitVec.toNat_setWidth_of_le (by decide), BitVec.extractLsb'_toNat, Nat.shiftRight_zero]
  exact Nat.and_two_pow_sub_one_eq_mod _ 4

section Unpacker

variable (b : Response)

/-- R191, R194: the humidity formula is `{b1, b2, b3[7:4]}`. -/
theorem humWord_eq_concat :
    humWord b = (b.b1 ++ b.b2 ++ b.b3.extractLsb' 4 4 : RawCount).setWidth 32 := by
  rw [BitVec.setWidth_append_append_eq_shiftLeft_setWidth_or, ← zext32_ushiftRight_four]
  rfl

/-- R192, R194: the temperature formula is `{b3[3:0], b4, b5}`. -/
theorem tempWord_eq_concat :
    tempWord b = (b.b3.extractLsb' 0 4 ++ b.b4 ++ b.b5 : RawCount).setWidth 32 := by
  rw [BitVec.setWidth_append_append_eq_shiftLeft_setWidth_or, ← zext32_and_lowNibble]
  rfl

theorem unpackHum_eq_concat : unpackHum b = b.b1 ++ b.b2 ++ b.b3.extractLsb' 4 4 := by
  rw [unpackHum, humWord_eq_concat, BitVec.setWidth_setWidth_of_le _ (by decide), BitVec.setWidth_eq]

theorem unpackTemp_eq_concat : unpackTemp b = b.b3.extractLsb' 0 4 ++ b.b4 ++ b.b5 := by
  rw [unpackTemp, tempWord_eq_concat, BitVec.setWidth_setWidth_of_le _ (by decide), BitVec.setWidth_eq]

/-- R195: the cut to 20 bits loses nothing. -/
theorem humWord_eq_zext_unpackHum : humWord b = (unpackHum b).setWidth 32 := by
  rw [unpackHum_eq_concat, humWord_eq_concat]

theorem tempWord_eq_zext_unpackTemp : tempWord b = (unpackTemp b).setWidth 32 := by
  rw [unpackTemp_eq_concat, tempWord_eq_concat]

theorem unpackHum_b1 : (unpackHum b).extractLsb' 12 8 = b.b1 := by
  rw [unpackHum_eq_concat, BitVec.extractLsb'_append_eq_of_le (by decide)]
  exact BitVec.extractLsb'_append_eq_left

theorem unpackHum_b2 : (unpackHum b).extractLsb' 4 8 = b.b2 := by
  rw [unpackHum_eq_concat, BitVec.extractLsb'_append_eq_of_le (by decide)]
  exact BitVec.extractLsb'_append_eq_right

theorem unpackHum_b3 : (unpackHum b).extractLsb' 0 4 = b.b3.extractLsb' 4 4 := by
  rw [unpackHum_eq_concat, BitVec.extractLsb'_append_eq_right]

theorem unpackTemp_b3 : (unpackTemp b).extractLsb' 16 4 = b.b3.extractLsb' 0 4 := by
  rw [unpackTemp_eq_concat, BitVec.extractLsb'_append_eq_of_le (by decide)]
  exact BitVec.extractLsb'_append_eq_left

theorem unpackTemp_b4 : (unpackTemp b).extractLsb' 8 8 = b.b4 := by
  rw [unpackTemp_eq_concat, BitVec.extractLsb'_append_eq_of_le (by decide)]
  exact BitVec.extractLsb'_append_eq_right

theorem unpackTemp_b5 : (unpackTemp b).extractLsb' 0 8 = b.b5 := by
  rw [unpackTemp_eq_concat, BitVec.extractLsb'_append_eq_right]

theorem unpackHum_toNat :
    (unpackHum b).toNat = b.b1.toNat * 2 ^ 12 + b.b2.toNat * 2 ^ 4 + b.b3.toNat / 2 ^ 4 := by
  rw [unpackHum_eq_concat, toNat_append_eq_add, toNat_append_eq_add, BitVec.extractLsb'_toNat,
    Nat.shiftRight_eq_div_pow]
  omega

theorem unpackTemp_toNat :
    (unpackTemp b).toNat = b.b3.toNat % 2 ^ 4 * 2 ^ 16 + b.b4.toNat * 2 ^ 8 + b.b5.toNat := by
  rw [unpackTemp_eq_concat, toNat_append_eq_add, toNat_append_eq_add, BitVec.extractLsb'_toNat,
    Nat.shiftRight_zero]
  omega

end Unpacker

/-- Settles O41: the fields, the zero bits and the sums of the two concatenations. -/
theorem unpackedFieldsAreConcatenations : Obligations.UnpackedFieldsAreConcatenations := by
  intro b
  refine ⟨unpackHum_b1 b, unpackHum_b2 b, unpackHum_b3 b, unpackTemp_b3 b, unpackTemp_b4 b,
    unpackTemp_b5 b, ?humTop, ?tempTop, ?humWord, ?tempWord, unpackHum_toNat b, unpackTemp_toNat b⟩
  case humTop =>
    rw [humWord_eq_zext_unpackHum, extractLsb'_setWidth_of_width_le _ (by decide)]
  case tempTop =>
    rw [tempWord_eq_zext_unpackTemp, extractLsb'_setWidth_of_width_le _ (by decide)]
  case humWord =>
    rw [humWord_eq_zext_unpackHum, BitVec.toNat_setWidth_of_le (by decide)]
  case tempWord =>
    rw [tempWord_eq_zext_unpackTemp, BitVec.toNat_setWidth_of_le (by decide)]

section Packing

variable (st crc : Byte) (h t : RawCount)

theorem packResponse_b3 :
    (packResponse st h t crc).b3 = h.extractLsb' 0 4 ++ t.extractLsb' 16 4 := by
  rw [← BitVec.setWidth_eq (h.extractLsb' 0 4 ++ t.extractLsb' 16 4),
    BitVec.setWidth_append_eq_shiftLeft_setWidth_or]
  rfl

theorem unpackHum_packResponse : unpackHum (packResponse st h t crc) = h := by
  calc unpackHum (packResponse st h t crc)
      = h.extractLsb' 12 8 ++ h.extractLsb' 4 8 ++ h.extractLsb' 0 4 := by
        rw [unpackHum_eq_concat, packResponse_b3, BitVec.extractLsb'_append_eq_left]
        rfl
    _ = h := by
        rw [BitVec.extractLsb'_append_extractLsb'_eq_extractLsb' (by decide),
          BitVec.extractLsb'_append_extractLsb'_eq_extractLsb' (by decide)]
        exact BitVec.extractLsb'_eq_self

theorem unpackTemp_packResponse : unpackTemp (packResponse st h t crc) = t := by
  calc unpackTemp (packResponse st h t crc)
      = t.extractLsb' 16 4 ++ t.extractLsb' 8 8 ++ t.extractLsb' 0 8 := by
        rw [unpackTemp_eq_concat, packResponse_b3, BitVec.extractLsb'_append_eq_right]
        rfl
    _ = t := by
        rw [BitVec.extractLsb'_append_extractLsb'_eq_extractLsb' (by decide),
          BitVec.extractLsb'_append_extractLsb'_eq_extractLsb' (by decide)]
        exact BitVec.extractLsb'_eq_self

/-- Byte 3 comes back because its two nibbles do. -/
theorem packResponse_unpack_b3 (b : Response) :
    (packResponse st (unpackHum b) (unpackTemp b) crc).b3 = b.b3 := by
  rw [packResponse_b3, unpackHum_b3, unpackTemp_b3,
    BitVec.extractLsb'_append_extractLsb'_eq_extractLsb' (by decide)]
  exact BitVec.extractLsb'_eq_self

theorem packResponse_unpack (b : Response) :
    packResponse b.b0 (unpackHum b) (unpackTemp b) b.b6 = b :=
  (Response.mk.injEq ..).mpr ⟨rfl, unpackHum_b1 b, unpackHum_b2 b, packResponse_unpack_b3 b.b0 b.b6 b,
    unpackTemp_b4 b, unpackTemp_b5 b, rfl⟩

end Packing

/-- Settles O42: the two concatenations put together what packing takes apart, and the converse. -/
theorem unpackAndPackAreInverse : Obligations.UnpackAndPackAreInverse :=
  ⟨fun st crc h t => ⟨unpackHum_packResponse st crc h t, unpackTemp_packResponse st crc h t⟩,
    packResponse_unpack⟩

end Sys2Proof.Machine

/-! # The value conversions of 44_value_conversion.md

One formula gives `round24` at every length, since no rounding happens at distance 0; from it, a number between two
powers of two stays between them. So `round24` is monotone: numbers of one length round at the same place, and a power of
two separates numbers of two lengths. Both conversions round numerators over 2^20, hence they are monotone too, and
their ranges are read off the two ends. -/

namespace Sys2Proof.Machine

open Sys2Proof

/-! ### Raw counts -/

theorem humidityOf_of_lt {n : Nat} (h : n < 2 ^ 20) :
    humidityOf n = some { count := BitVec.ofNat 20 n } :=
  if_pos (decide_eq_true h)

theorem temperatureOf_of_lt {n : Nat} (h : n < 2 ^ 20) :
    temperatureOf n = some { count := BitVec.ofNat 20 n } :=
  if_pos (decide_eq_true h)

theorem rawCountWf_of_le {n : Nat} (h : 2 ^ 20 ≤ n) : ¬ rawCountWf n = true :=
  fun hwf => Nat.not_lt.mpr h (of_decide_eq_true hwf)

theorem humidityOf_of_le {n : Nat} (h : 2 ^ 20 ≤ n) : humidityOf n = none :=
  if_neg (rawCountWf_of_le h)

theorem temperatureOf_of_le {n : Nat} (h : 2 ^ 20 ≤ n) : temperatureOf n = none :=
  if_neg (rawCountWf_of_le h)

/-- R210: `raw()` zero-extends to a `u32`, which loses nothing. -/
@[simp] theorem humidityRaw_toNat (h : Humidity) : (humidityRaw h).toNat = h.count.toNat :=
  BitVec.toNat_setWidth_of_le (by decide)

@[simp] theorem temperatureRaw_toNat (t : Temperature) : (temperatureRaw t).toNat = t.count.toNat :=
  BitVec.toNat_setWidth_of_le (by decide)

/-- Settles O43: the count of a built value is the number modulo 2^20, which below 2^20 is the number. -/
theorem rawCountsRoundTrip : Obligations.RawCountsRoundTrip := by
  intro n
  refine ⟨fun h => ?_, fun h => ⟨humidityOf_of_le h, temperatureOf_of_le h⟩⟩
  have count : (BitVec.ofNat 20 n).toNat = n := Nat.mod_eq_of_lt h
  exact ⟨⟨_, humidityOf_of_lt h, by rw [humidityRaw_toNat, count]⟩,
    ⟨_, temperatureOf_of_lt h, by rw [temperatureRaw_toNat, count]⟩⟩

/-! ### Rounding to 24 bits -/

/-- `m / 2^k` to the nearest number, ties to even: the quotient `round24` takes. -/
def roundQuot (m k : Nat) : Nat :=
  if 2 ^ (k - 1) < m % 2 ^ k ∨ (m % 2 ^ k = 2 ^ (k - 1) ∧ m / 2 ^ k % 2 = 1) then m / 2 ^ k + 1
  else m / 2 ^ k

theorem roundQuot_of_dvd {m k : Nat} (h : 2 ^ k ∣ m) : roundQuot m k = m / 2 ^ k := by
  have rem : m % 2 ^ k = 0 := Nat.mod_eq_zero_of_dvd h
  have half : 0 < 2 ^ (k - 1) := Nat.two_pow_pos _
  exact if_neg (by omega)

theorem le_roundQuot (m k : Nat) : m / 2 ^ k ≤ roundQuot m k := by
  unfold roundQuot
  split <;> omega

theorem roundQuot_le (m k : Nat) : roundQuot m k ≤ m / 2 ^ k + 1 := by
  unfold roundQuot
  split <;> omega

/-- With equal quotients the greater remainder is rounded up if the smaller one is; with different quotients,
rounding up reaches at most the next quotient. -/
theorem roundQuot_mono {m n : Nat} (k : Nat) (h : m ≤ n) : roundQuot m k ≤ roundQuot n k := by
  obtain hq | hq := (Nat.div_le_div_right (c := 2 ^ k) h).lt_or_eq
  · calc roundQuot m k ≤ m / 2 ^ k + 1 := roundQuot_le m k
      _ ≤ n / 2 ^ k := hq
      _ ≤ roundQuot n k := le_roundQuot n k
  · have hr : m % 2 ^ k ≤ n % 2 ^ k := by
      have hm := Nat.div_add_mod m (2 ^ k)
      have hn := Nat.div_add_mod n (2 ^ k)
      rw [hq] at hm
      omega
    unfold roundQuot
    rw [hq]
    split <;> split <;> omega

/-- Up to 24 bits the distance is 0, where nothing is rounded. -/
theorem round24_eq (m : Nat) :
    round24 m = roundQuot m (Nat.log2 m - 23) * 2 ^ (Nat.log2 m - 23) := by
  by_cases h : Nat.log2 m + 1 ≤ 24
  · have hk : Nat.log2 m - 23 = 0 := by omega
    rw [hk, roundQuot_of_dvd (one_dvd m), Nat.pow_zero, Nat.div_one, Nat.mul_one]
    exact if_pos h
  · exact if_neg h

theorem round24_of_dvd {m : Nat} (h : 2 ^ (Nat.log2 m - 23) ∣ m) : round24 m = m := by
  rw [round24_eq, roundQuot_of_dvd h, Nat.div_mul_cancel h]

/-- R214: a product is exact when it is a power of two times a number of 24 bits. -/
theorem round24_mul_two_pow {a : Nat} (j : Nat) (h : a < 2 ^ 24) : round24 (a * 2 ^ j) = a * 2 ^ j := by
  apply round24_of_dvd
  obtain rfl | ha := Nat.eq_zero_or_pos a
  · simp
  · have hne : a * 2 ^ j ≠ 0 := (Nat.mul_pos ha (Nat.two_pow_pos j)).ne'
    have hlog : Nat.log2 (a * 2 ^ j) < 24 + j := by
      rw [Nat.log2_lt hne, Nat.pow_add]
      exact Nat.mul_lt_mul_of_pos_right h (Nat.two_pow_pos j)
    exact (Nat.pow_dvd_pow 2 (by omega)).trans (Nat.dvd_mul_left _ a)

theorem two_pow_log2_le_round24 {m : Nat} (h : m ≠ 0) : 2 ^ Nat.log2 m ≤ round24 m := by
  rw [round24_eq]
  set k := Nat.log2 m - 23 with hk
  calc 2 ^ Nat.log2 m = 2 ^ Nat.log2 m / 2 ^ k * 2 ^ k :=
        (Nat.div_mul_cancel (Nat.pow_dvd_pow 2 (by omega))).symm
    _ ≤ m / 2 ^ k * 2 ^ k := Nat.mul_le_mul_right _ (Nat.div_le_div_right (Nat.log2_self_le h))
    _ ≤ roundQuot m k * 2 ^ k := Nat.mul_le_mul_right _ (le_roundQuot m k)

theorem round24_le_two_pow (m : Nat) : round24 m ≤ 2 ^ (Nat.log2 m + 1) := by
  rw [round24_eq]
  set k := Nat.log2 m - 23 with hk
  have hdvd : 2 ^ k ∣ 2 ^ (Nat.log2 m + 1) := Nat.pow_dvd_pow 2 (by omega)
  calc roundQuot m k * 2 ^ k ≤ roundQuot (2 ^ (Nat.log2 m + 1)) k * 2 ^ k :=
        Nat.mul_le_mul_right _ (roundQuot_mono k Nat.lt_log2_self.le)
    _ = 2 ^ (Nat.log2 m + 1) := by rw [roundQuot_of_dvd hdvd, Nat.div_mul_cancel hdvd]

theorem log2_le_log2_of_le {m n : Nat} (h : m ≤ n) : Nat.log2 m ≤ Nat.log2 n := by
  simpa only [Nat.log2_eq_log_two] using Nat.log_mono_right h

theorem round24_mono {m n : Nat} (h : m ≤ n) : round24 m ≤ round24 n := by
  obtain hlog | hlog := (log2_le_log2_of_le h).lt_or_eq
  · have hn : n ≠ 0 := by
      rintro rfl
      simp at hlog
    calc round24 m ≤ 2 ^ (Nat.log2 m + 1) := round24_le_two_pow m
      _ ≤ 2 ^ Nat.log2 n := Nat.pow_le_pow_right (by decide) hlog
      _ ≤ round24 n := two_pow_log2_le_round24 hn
  · rw [round24_eq, round24_eq, hlog]
    exact Nat.mul_le_mul_right _ (roundQuot_mono _ h)

/-! ### The conversions -/

theorem rnd_of_nonneg {x : Exact} (h : 0 ≤ x.num) : rnd x = { x with num := round24 x.num.natAbs } := by
  unfold rnd
  rw [if_neg (by omega)]

theorem rnd_of_neg {x : Exact} (h : x.num < 0) : rnd x = { x with num := -(round24 x.num.natAbs : Int) } := by
  unfold rnd
  rw [if_pos h]

/-- Rounding keeps the sign, and below 0 it is mirrored. -/
theorem rnd_num_mono {x y : Exact} (h : x.num ≤ y.num) : (rnd x).num ≤ (rnd y).num := by
  obtain hx | hx := lt_or_ge x.num 0 <;> obtain hy | hy := lt_or_ge y.num 0
  · have := round24_mono (m := y.num.natAbs) (n := x.num.natAbs) (by omega)
    simp only [rnd_of_neg hx, rnd_of_neg hy]
    omega
  · simp only [rnd_of_neg hx, rnd_of_nonneg hy]
    omega
  · omega
  · have := round24_mono (m := x.num.natAbs) (n := y.num.natAbs) (by omega)
    simp only [rnd_of_nonneg hx, rnd_of_nonneg hy]
    omega

theorem rnd_natCast (n : Nat) (e : Int) : rnd ⟨n, e⟩ = ⟨round24 n, e⟩ :=
  rnd_of_nonneg (Int.natCast_nonneg n)

/-- The value both conversions take of their product: R212 stops here, R213 subtracts from it. -/
theorem rnd_divPow2_rnd_natCast (n : Nat) :
    rnd (divPow2 (rnd ⟨n, 0⟩) 20) = ⟨round24 (round24 n), -20⟩ := by
  rw [rnd_natCast]
  exact rnd_natCast (round24 n) (-20)

theorem subNat_of_exp_nonpos {e : Int} (h : e ≤ 0) (m : Int) (n : Nat) :
    subNat ⟨m, e⟩ n = ⟨m - n * 2 ^ (-e).toNat, e⟩ :=
  if_pos h

theorem humidityPercent_eq (r : RawCount) :
    humidityPercent r = ⟨round24 (round24 (100 * r.toNat)), -20⟩ :=
  rnd_divPow2_rnd_natCast (100 * r.toNat)

theorem celsiusDegrees_eq (r : RawCount) :
    celsiusDegrees r = rnd ⟨round24 (round24 (200 * r.toNat)) - 50 * 2 ^ 20, -20⟩ := by
  have scaled : rnd (divPow2 (rnd ⟨200 * (r.toNat : Int), 0⟩) 20) =
      ⟨round24 (round24 (200 * r.toNat)), -20⟩ := rnd_divPow2_rnd_natCast (200 * r.toNat)
  rw [celsiusDegrees, scaled, subNat_of_exp_nonpos (by decide)]
  rfl

theorem exactValue_neg_twenty (n : Int) : exactValue ⟨n, -20⟩ = (n : Rat) / 1048576 := by
  norm_num [exactValue, div_eq_mul_inv]

theorem exactValue_humidityPercent (r : RawCount) :
    exactValue (humidityPercent r) = (humidityPercent r).num / 1048576 := by
  rw [humidityPercent_eq, exactValue_neg_twenty]

theorem exactValue_celsiusDegrees (r : RawCount) :
    exactValue (celsiusDegrees r) = (celsiusDegrees r).num / 1048576 := by
  rw [celsiusDegrees_eq]
  exact exactValue_neg_twenty _

section Monotone

variable {r r' : RawCount}

theorem round24_round24_mul_mono (c : Nat) (h : r.toNat ≤ r'.toNat) :
    round24 (round24 (c * r.toNat)) ≤ round24 (round24 (c * r'.toNat)) :=
  round24_mono (round24_mono (Nat.mul_le_mul_left c h))

theorem humidityPercent_num_mono (h : r.toNat ≤ r'.toNat) :
    (humidityPercent r).num ≤ (humidityPercent r').num := by
  rw [humidityPercent_eq, humidityPercent_eq]
  exact Int.ofNat_le.mpr (round24_round24_mul_mono 100 h)

theorem celsiusDegrees_num_mono (h : r.toNat ≤ r'.toNat) :
    (celsiusDegrees r).num ≤ (celsiusDegrees r').num := by
  rw [celsiusDegrees_eq, celsiusDegrees_eq]
  exact rnd_num_mono (Int.sub_le_sub_right (Int.ofNat_le.mpr (round24_round24_mul_mono 200 h)) _)

theorem exactValue_humidityPercent_mono (h : r.toNat ≤ r'.toNat) :
    exactValue (humidityPercent r) ≤ exactValue (humidityPercent r') := by
  rw [exactValue_humidityPercent, exactValue_humidityPercent]
  have := humidityPercent_num_mono h
  gcongr

theorem exactValue_celsiusDegrees_mono (h : r.toNat ≤ r'.toNat) :
    exactValue (celsiusDegrees r) ≤ exactValue (celsiusDegrees r') := by
  rw [exactValue_celsiusDegrees, exactValue_celsiusDegrees]
  have := celsiusDegrees_num_mono h
  gcongr

end Monotone

/-- Settles O45: each rounding is monotone, and so are the steps between. -/
theorem conversionsAreMonotone : Obligations.ConversionsAreMonotone :=
  fun _ _ h => ⟨exactValue_humidityPercent_mono h, exactValue_celsiusDegrees_mono h⟩

/-- R214: 100 r = 25 r * 4, and 25 r has 24 bits. -/
theorem humidityPercent_num_of_le {r : RawCount} (h : r.toNat ≤ 671088) :
    (humidityPercent r).num = 100 * r.toNat := by
  have product : 100 * r.toNat = 25 * r.toNat * 2 ^ 2 := by omega
  have unrounded : round24 (100 * r.toNat) = 100 * r.toNat := by
    rw [product, round24_mul_two_pow 2 (by omega)]
  rw [humidityPercent_eq, unrounded, unrounded, Int.natCast_mul]
  rfl

/-- 67108900 = 8388612 * 8 + 4 is a tie, and goes to the even quotient. -/
theorem humidityPercent_671089 : humidityPercent 671089#20 = ⟨67108896, -20⟩ := by decide

/-- Settles O44: up to the bound no rounding changes the numerator 100 r, and just above it one does. -/
theorem percentIsExactUpToTheBound : Obligations.PercentIsExactUpToTheBound := by
  constructor
  · intro r h
    rw [exactValue_humidityPercent, humidityPercent_num_of_le h]
    push_cast
    rfl
  · rw [humidityPercent_671089, exactValue_neg_twenty]
    norm_num

theorem exactValue_humidityPercent_zero : exactValue (humidityPercent 0#20) = 0 := by
  rw [show humidityPercent 0#20 = ⟨0, -20⟩ by decide, exactValue_neg_twenty]
  norm_num

theorem exactValue_humidityPercent_last :
    exactValue (humidityPercent 0xFFFFF#20) = (104857504 : Rat) / 1048576 := by
  rw [show humidityPercent 0xFFFFF#20 = ⟨104857504, -20⟩ by decide, exactValue_neg_twenty]
  norm_num

theorem exactValue_celsiusDegrees_zero : exactValue (celsiusDegrees 0#20) = -50 := by
  rw [show celsiusDegrees 0#20 = ⟨-52428800, -20⟩ by decide, exactValue_neg_twenty]
  norm_num

theorem exactValue_celsiusDegrees_last :
    exactValue (celsiusDegrees 0xFFFFF#20) = (157286208 : Rat) / 1048576 := by
  rw [show celsiusDegrees 0xFFFFF#20 = ⟨157286208, -20⟩ by decide, exactValue_neg_twenty]
  norm_num

/-- Settles O46: a monotone conversion lies between its values at the least and the greatest count. -/
theorem conversionRanges : Obligations.ConversionRanges := by
  refine ⟨fun r => ?_, exactValue_humidityPercent_zero, exactValue_humidityPercent_last,
    exactValue_celsiusDegrees_zero, exactValue_celsiusDegrees_last⟩
  have least : (0#20).toNat ≤ r.toNat := Nat.zero_le _
  have greatest : r.toNat ≤ (0xFFFFF#20).toNat := Nat.le_of_lt_succ r.isLt
  exact ⟨exactValue_humidityPercent_zero.ge.trans (exactValue_humidityPercent_mono least),
    (exactValue_humidityPercent_mono greatest).trans_eq exactValue_humidityPercent_last,
    exactValue_celsiusDegrees_zero.ge.trans (exactValue_celsiusDegrees_mono least),
    (exactValue_celsiusDegrees_mono greatest).trans_eq exactValue_celsiusDegrees_last⟩

end Sys2Proof.Machine

/-! # Block reset of 70_reset_and_hazards.md

The platform's turn is a `blockReset`, which records only what the withdrawal in it records (R261). -/

namespace Sys2Proof.Machine

open Sys2Proof

section BlockReset

variable {E : Type} {p : Params} {s : State.Over E} {ts : List Agent}

theorem stepOver_platform (ht : s.turns = .platform :: ts) :
    stepOver p s = .next (blockReset { s with turns := ts }) := by
  rw [stepOver_cons ht, turnOf]

/-- R152: the request withdrawn is recorded as such, and nothing is issued in its place. -/
theorem withdraw_records_no_issue (s : State.Over E) :
    ∃ es, (withdraw s).transcript = s.transcript ++ es ∧ ∀ r, WireEntry.issued r ∉ es := by
  rcases withdraw_cases s with ⟨_, hw⟩ | ⟨ms, _, hw⟩ | ⟨r, _, _, hw⟩ <;> rw [hw]
  · exact ⟨[], by simp⟩
  · exact ⟨[.withdrawnTimer ms], rfl, by simp⟩
  · exact ⟨[.withdrawnXport r _], rfl, by simp⟩

end BlockReset

/-- Settles O8: the elements are the fields of `blockReset`, and its record is that of its `withdraw`. -/
theorem blockResetFromAnyState : Obligations.BlockResetFromAnyState := by
  intro s ts ht
  obtain ⟨es, hes, hissue⟩ := withdraw_records_no_issue { s with turns := ts }
  have hstep : step s = .next (blockReset { s with turns := ts }) := stepOver_platform ht
  exact ⟨_, hstep, blockReset_fsm _, blockReset_resValid _, blockReset_rspValid _, blockReset_rspErr _,
    blockReset_outstanding _, blockReset_needsInit _, blockReset_turns _, blockReset_hostQ _,
    blockReset_xportQ _, blockReset_readData _, blockReset_faulted _, es, hes, hissue⟩

end Sys2Proof.Machine

/-! # The table words of 30_encoding.md -/

namespace Sys2Proof

section TableWords

variable {nbits w : Nat}

/-- A table word whose code is one of an instruction's own codes decodes to that instruction. -/
theorem decodeTableWord_of_encodeWith {i : Instr} (z : Word32)
    (h : Code.ofTableWord nbits w = encodeWith Config.params z i) : decodeTableWord nbits w = some i := by
  have hwf : Config.params.wf = true := by decide
  rw [decodeTableWord, h, decode_encodeWith hwf]

theorem decodeTableWord_of_error {e : DecodeError}
    (h : decode Config.params (Code.ofTableWord nbits w) = .error e) : decodeTableWord nbits w = none := by
  rw [decodeTableWord, h]

end TableWords

/-- Settles O1: ten words are codes of their instructions, one at set ignored bits, and R87 refuses the two others: the
opcode 0x71, and the opcode of CALIBRATE with data word 0x0008. -/
theorem tableWordsDecode : Obligations.TableWordsDecode := by
  have plain {nbits w : Nat} {i : Instr} :
      Code.ofTableWord nbits w = encodeWith Config.params 0#32 i → decodeTableWord nbits w = some i :=
    decodeTableWord_of_encodeWith 0#32
  exact ⟨plain rfl, plain rfl, plain rfl, plain rfl, decodeTableWord_of_encodeWith 0xFFFFFFFC#32 rfl,
    plain rfl, plain rfl, plain rfl, plain rfl, plain rfl,
    decodeTableWord_of_error (e := .unknownOpcode 0x71#8) rfl,
    decodeTableWord_of_error (e := .otherDataWord 0xE1#8 0x0008#16) rfl⟩

end Sys2Proof
